-- ==== Sys2Proof/Word.lean ====
section
/-! DEFINITION. The unit of every transfer of the link block: a byte (00_scope.md R10, 20_memory.md R47). -/

namespace Sys2Proof

/-- An unsigned 8-bit integer, bits 7 (most significant) to 0 (00_scope.md R10). -/
abbrev Byte := BitVec 8

end Sys2Proof
end

