-- ==== Sys2Proof/Config.lean ====
section
/-! DEFINITION. The parameters of 00_scope.md R8, the constants it fixes, and the one free value of the model. -/

namespace Sys2Proof

/-- The OPEN parameters of R8, fixed from reset to reset (70_reset_and_hazards.md R153). -/
structure Config where
  /-- `SYNC1`, any byte. -/
  sync1 : Byte
  /-- `SYNC2`, any byte; `SYNC1 = SYNC2` is legal (R9). -/
  sync2 : Byte
  /-- `POLL_ID`, must differ from `ACK_ID` (R9). -/
  pollId : Byte
  /-- `ACK_ID`, must differ from `POLL_ID` (R9). -/
  ackId : Byte
  deriving DecidableEq, Repr

/-- R9: a configuration whose two reserved ids are equal has no meaning. -/
def Config.legal (c : Config) : Bool := c.pollId != c.ackId

/-- The reference configuration TC0 of R8, under which every vector of 95_test_vectors.md and every frame row of the
opcode table is written. `POLL_ID` and `ACK_ID` are the spec's general-knowledge values (93_implementation_defined.md G1). -/
def Config.tc0 : Config := { sync1 := 0xFA, sync2 := 0xFB, pollId := 0x41, ackId := 0x42 }

/-- `MAX_RETRY` (R8), normative. -/
def Config.maxRetry : Nat := 5

/-- `SEQ_MAX` (R8), normative. -/
def Config.seqMax : Nat := 255

/-- `MAX_PAYLOAD` (R8): the largest value of the length byte. -/
def Config.maxPayload : Nat := 255

/-- `MAX_ENQ_PAYLOAD` (R8): the sequence byte takes one payload byte. -/
def Config.maxEnqPayload : Nat := 254

/-- `RXCAP` (R8): the most bytes the receive buffer ever holds. -/
def Config.rxCap : Nat := 260

/-- FREE VALUE (20_memory.md R53, 60_exceptions.md R140 (a)): whether the line side goes first at the n-th time both
sides offer an operation. It has no body: a claim holds whichever order it gives (log entry 4). Safe. -/
opaque Config.lineFirst : Nat → Bool

end Sys2Proof
end

