-- ==== Sys2Proof/Syntax.lean ====
section
/-! DEFINITION. The operations, the frame classes and the outbound frames of 30_encoding.md R70: one constructor per
row of spec/opcode_table.json. Also the forms their encodings take: a port request and a frame on the wire. -/

namespace Sys2Proof

/-- The rows of the opcode table (R70). A frame constructor carries the frame's variable fields: the sync bytes, the
length byte and (but for `badFrame`) the check byte follow from them (R60). -/
inductive Instr where
  /-- STATUS (R73): no operands. -/
  | status
  /-- RX_BYTE (40_frame_codec.md R83): the received byte. -/
  | rxByte (b : Byte)
  /-- ENQUEUE (41_protocol_fsm.md R103): the command id and the caller's payload. -/
  | enqueue (cmd : Byte) (payload : List Byte)
  /-- RESET (70_reset_and_hazards.md R150): no operands. -/
  | reset
  /-- POLL: a good frame with command id `POLL_ID` (R63). -/
  | poll (payload : List Byte)
  /-- ACK: a good frame with command id `ACK_ID` (R63). -/
  | ack (payload : List Byte)
  /-- DATA: a good frame with any other command id (R63). -/
  | data (cmd : Byte) (payload : List Byte)
  /-- BADFRAME: a complete frame whose trailing byte `chk` is not the XOR of the bytes before it (R88). -/
  | badFrame (cmd : Byte) (payload : List Byte) (chk : Byte)
  /-- ACKF: the bare ack frame, outbound (R101). -/
  | ackf
  /-- CMDF: a command frame, outbound (R102): command id, sequence byte, caller's payload. -/
  | cmdf (cmd : Byte) (seq : Byte) (payload : List Byte)
  deriving DecidableEq, Repr

/-- What a side offers at the operation port and the payload port (R71, R72). -/
structure PortOp where
  /-- The 18-bit operation word: op in bits 1..0, a in bits 9..2, l in bits 17..10. -/
  word : BitVec 18
  /-- The bytes on the payload port. -/
  payload : List Byte
  deriving DecidableEq, Repr

/-- The form an instruction takes outside the block. The direction of a frame is no bit of it. -/
inductive Image where
  /-- A request at the ports (R72). -/
  | port (op : PortOp)
  /-- A frame coming in from the line (R60). -/
  | inbound (bytes : List Byte)
  /-- A frame going out on the line (R60). -/
  | outbound (bytes : List Byte)
  deriving DecidableEq, Repr

end Sys2Proof
end

