-- ==== Sys2Proof/Decode.lean ====
section
/-! DEFINITION. Reading and writing the encodings of 30_encoding.md and 40_frame_codec.md: the XOR checksum, the frame
builder, the sync detector and length parser, the operation word; and, after the decoders, the encoder. -/

namespace Sys2Proof

/-! ## The frame (R60 to R62, R80 to R82) -/

/-- `xor_fold` (R80). -/
def xorFold : List Byte → Byte
  | [] => 0
  | x :: l => x ^^^ xorFold l

/-- The length byte of a payload: `zext_8(len(payload))` (R81). -/
def lenByte (payload : List Byte) : Byte := BitVec.ofNat 8 payload.length

/-- Every byte of a frame before the check byte (R60, the list `h` of R81). -/
def frameHead (c : Config) (cmd : Byte) (payload : List Byte) : List Byte :=
  c.sync1 :: c.sync2 :: cmd :: lenByte payload :: payload

/-- The check byte of a frame (R62). -/
def checkByte (c : Config) (cmd : Byte) (payload : List Byte) : Byte := xorFold (frameHead c cmd payload)

/-- The bytes of a frame with a given last byte (the layout of R60, right or wrong check byte). -/
def frameWith (c : Config) (cmd : Byte) (payload : List Byte) (chk : Byte) : List Byte :=
  frameHead c cmd payload ++ [chk]

/-- `build(cmd, payload)` (R81); none where its `require len(payload) <= 255` fails, which is a fault and never a frame
(R81, 93_implementation_defined.md U1, log entry 11). -/
def build (c : Config) (cmd : Byte) (payload : List Byte) : Option (List Byte) :=
  if payload.length ≤ Config.maxPayload then some (frameWith c cmd payload (checkByte c cmd payload)) else none

/-! ## The fields of a buffer that begins with a complete frame (R69) -/

/-- `cmd = f[2]`. -/
def frameCmd (f : List Byte) : Byte := f.getD 2 0

/-- `N = f[3]`. -/
def frameLen (f : List Byte) : Nat := (f.getD 3 0).toNat

/-- `payload = f[4 .. 4+N)`. -/
def framePayload (f : List Byte) : List Byte := (f.drop 4).take (frameLen f)

/-- `chk = f[4+N]`. -/
def frameChk (f : List Byte) : Byte := f.getD (4 + frameLen f) 0

/-- `chk_ok(f)` (R82): `xor_fold(f[0 .. 4+N)) = f[4+N]`. -/
def chkOk (f : List Byte) : Bool := xorFold (f.take (4 + frameLen f)) == frameChk f

/-! ## The receiver's view of its buffer (R84) -/

/-- The least `i` with `f[i] = SYNC1` and `f[i+1] = SYNC2` (R84 branch A, R85). -/
def firstPair (c : Config) : List Byte → Option Nat
  | [] => none
  | [_] => none
  | a :: b :: l =>
    if a = c.sync1 ∧ b = c.sync2 then some 0 else (firstPair c (b :: l)).map (· + 1)

/-- What a buffer without a sync pair keeps: a final `SYNC1`, nothing else (R86). -/
def keptTail (c : Config) (buf : List Byte) : List Byte :=
  if buf.getLast? = some c.sync1 then [c.sync1] else []

/-- The answer of branches A to D of `parse_once` (R84). -/
inductive Scan where
  /-- NEED_MORE, with what the buffer keeps. -/
  | needMore (kept : List Byte)
  /-- A complete frame at the head of the buffer `h`, its checksum bad (branch D). -/
  | bad (h : List Byte)
  /-- A complete frame at the head of the buffer `h`, its checksum good (branch E). -/
  | good (h : List Byte)
  deriving DecidableEq, Repr

/-- Branches B to D of R84, on a buffer whose first two bytes are the sync pair (R87, R88). -/
def scanAtPair (h : List Byte) : Scan :=
  if h.length < 4 then .needMore h
  else if h.length < 5 + frameLen h then .needMore h
  else if chkOk h then .good h
  else .bad h

/-- Branches A to D of R84, on any buffer. -/
def scan (c : Config) (buf : List Byte) : Scan :=
  match firstPair c buf with
  | none => .needMore (keptTail c buf)
  | some i => scanAtPair (buf.drop i)

/-! ## Frame classes (R63) -/

/-- The class of a good frame. -/
inductive FrameClass where
  | poll
  | ack
  | data
  deriving DecidableEq, Repr

/-- `class(cmd)` (R63): by command id alone. -/
def classify (c : Config) (cmd : Byte) : FrameClass :=
  if cmd = c.pollId then .poll else if cmd = c.ackId then .ack else .data

/-- The instruction a good frame with this id and payload stands for (R63, R70). -/
def goodFrameInstr (c : Config) (cmd : Byte) (payload : List Byte) : Instr :=
  match classify c cmd with
  | .poll => .poll payload
  | .ack => .ack payload
  | .data => .data cmd payload

/-! ## The decoders -/

/-- Why something does not decode. -/
inductive Reject where
  /-- An ENQUEUE whose payload port carries at most 255 bytes, but not exactly `l` (R72). -/
  | payloadPortMismatch
  /-- The received bytes hold no complete frame yet (R86, R87: NEED_MORE). -/
  | incompleteFrame
  /-- Bytes that are no frame the block sends (R101, R102): the layout of R60 is broken. -/
  | notAnOutboundFrame
  /-- An outbound frame without a sequence byte in 1..255 that is not the bare ack (R68, R104). -/
  | noSequenceByte
  deriving DecidableEq, Repr

/-- The field `a` of an operation word (R72). -/
def opA (w : BitVec 18) : Byte := w.extractLsb' 2 8

/-- The field `l` of an operation word (R72). -/
def opL (w : BitVec 18) : Byte := w.extractLsb' 10 8

/-- Read a request at the ports (R72). All four `op` values are used; ignored bits have no effect. A list of more than 255
bytes, which no `l` encodes, is the abstract ENQUEUE of R72, to be faulted like every list longer than 254 (log entry 6). -/
def decodeOp (r : PortOp) : Except Reject Instr :=
  match (r.word.extractLsb' 0 2).toNat with
  | 0 => .ok .status
  | 1 => .ok (.rxByte (opA r.word))
  | 2 =>
    if r.payload.length = (opL r.word).toNat ∨ Config.maxPayload < r.payload.length then .ok (.enqueue (opA r.word) r.payload)
    else .error .payloadPortMismatch
  | _ => .ok .reset

/-- Read the first frame of received bytes, and what the receiver's buffer holds after it (R84 to R89). -/
def decodeFrame (c : Config) (buf : List Byte) : Except Reject (Instr × List Byte) :=
  match scan c buf with
  | .needMore _ => .error .incompleteFrame
  | .bad h => .ok (.badFrame (frameCmd h) (framePayload h) (frameChk h), h.drop 1)
  | .good h => .ok (goodFrameInstr c (frameCmd h) (framePayload h), h.drop (5 + frameLen h))

/-- Read a transmitted frame (R101, R102): exactly one frame, with a good checksum. -/
def decodeTx (c : Config) (f : List Byte) : Except Reject Instr :=
  if f.take 2 = [c.sync1, c.sync2] ∧ f.length = 5 + frameLen f ∧ chkOk f = true then
    match framePayload f with
    | [] => if frameCmd f = c.ackId then .ok .ackf else .error .noSequenceByte
    | q :: p => if q = 0 then .error .noSequenceByte else .ok (.cmdf (frameCmd f) q p)
  else .error .notAnOutboundFrame

/-- The decoder of every form: total, rejecting by name. -/
def decode (c : Config) : Image → Except Reject Instr
  | .port r => decodeOp r
  | .inbound bytes => (decodeFrame c bytes).map Prod.fst
  | .outbound bytes => decodeTx c bytes

/-! ## The encoder, from the same tables -/

/-- `op | (a << 2) | (l << 10)` (R72). -/
def opWord (op : BitVec 2) (a l : Byte) : BitVec 18 := l ++ a ++ op

/-- The encoding of an instruction: R72 for the port operations (ignored fields 0), R60 for the frames. -/
def encode (c : Config) : Instr → Image
  | .status => .port { word := opWord 0 0 0, payload := [] }
  | .rxByte b => .port { word := opWord 1 b 0, payload := [] }
  | .enqueue cmd payload => .port { word := opWord 2 cmd (lenByte payload), payload := payload }
  | .reset => .port { word := opWord 3 0 0, payload := [] }
  | .poll payload => .inbound (frameWith c c.pollId payload (checkByte c c.pollId payload))
  | .ack payload => .inbound (frameWith c c.ackId payload (checkByte c c.ackId payload))
  | .data cmd payload => .inbound (frameWith c cmd payload (checkByte c cmd payload))
  | .badFrame cmd payload chk => .inbound (frameWith c cmd payload chk)
  | .ackf => .outbound (frameWith c c.ackId [] (checkByte c c.ackId []))
  | .cmdf cmd seq payload => .outbound (frameWith c cmd (seq :: payload) (checkByte c cmd (seq :: payload)))

/-! ## A word of the opcode table (log entry 14) -/

/-- The header bytes of a frame row: the table numbers them as one 32-bit word, byte 0 most significant. -/
def tableHeader (w : Nat) : List Byte :=
  [BitVec.ofNat 8 (w / 2 ^ 24), BitVec.ofNat 8 (w / 2 ^ 16), BitVec.ofNat 8 (w / 2 ^ 8), BitVec.ofNat 8 w]

/-- The payload bytes a frame row's word gives: bits above the header's 32 count on, one byte after another. -/
def tablePayload (w n : Nat) : List Byte := (List.range n).map fun i => BitVec.ofNat 8 (w / 2 ^ (32 + 8 * i))

/-- The frame a header word opens: its payload, and the check byte that R62 fixes from the bytes before it. -/
def tableFrame (w : Nat) : List Byte :=
  let h := tableHeader w
  let f := h ++ tablePayload w (frameLen h)
  f ++ [xorFold f]

/-- The encoded form a word of the table stands for: a row of at most 24 bits is an operation word (the payload port
carries `l` zero bytes), one of 32 bits an inbound frame, one of more bits an outbound frame. -/
def tableImage (nbits w : Nat) : Image :=
  if nbits ≤ 24 then
    let op : BitVec 18 := BitVec.ofNat 18 w
    .port { word := op, payload := List.replicate (opL op).toNat 0 }
  else if nbits ≤ 32 then .inbound (tableFrame w)
  else .outbound (tableFrame w)

/-- The instruction the decoder reads from a word of the opcode table, under TC0 (the table's own configuration). -/
def decodeTableWord (nbits w : Nat) : Option Instr :=
  match decode Config.tc0 (tableImage nbits w) with
  | .ok i => some i
  | .error _ => none

end Sys2Proof
end

