-- ==== Sys2Proof/Machine/State.lean ====
section
/-! DEFINITION. The state of the link block (10_state.md), its outputs (60_exceptions.md R138, 30_encoding.md R74), the
reasons a step can stop, and the state after reset (R32). All of it is plain data. -/

namespace Sys2Proof.Machine

/-- The engine state `st` (R20). -/
inductive EngineState where
  /-- `IDLE`, 0b00. -/
  | idle
  /-- `WAIT_ACK`, 0b01. -/
  | waitAck
  /-- `WAIT_DATA`, 0b10. -/
  | waitData
  deriving DecidableEq, Repr

/-- A PendingCommand record (R22). -/
structure Pending where
  /-- `pend.cmd`. -/
  cmd : Byte
  /-- `pend.seq`, 1..255. -/
  seq : Byte
  /-- `pend.payload`, 0..254 bytes, without the sequence byte. -/
  payload : List Byte
  /-- `pend.retries`, 3 bits, 0..5. -/
  retries : BitVec 3
  /-- `pend.acked`, 1 bit. -/
  acked : Bool
  deriving DecidableEq, Repr

/-- The closed set of event records (R138). -/
inductive Event where
  | queued (seq cmd : Byte)
  | sent (seq : Byte) (attempt : BitVec 3)
  | acknowledged (seq : Byte)
  | data (cmd : Byte) (payload : List Byte)
  | finished (seq : Byte)
  | timeout (seq : Byte)
  | diagChecksum (cmd len : Byte)
  | diagAnomaly (state : EngineState) (cmd : Byte)
  deriving DecidableEq, Repr

/-- The ENQUEUE response (R74). -/
inductive EnqResponse where
  | accept (seq : Byte)
  | busy
  | faultLen
  deriving DecidableEq, Repr

/-- The conditions of R131. -/
inductive Condition where
  | busy
  | faultLen
  | checksumMismatch
  | timeout
  | anomaly
  deriving DecidableEq, Repr

/-- An entry of the output trace (00_scope.md R7, R12). -/
inductive Output where
  /-- A transmitted frame, its bytes in wire order (20_memory.md R46). -/
  | tx (frame : List Byte)
  /-- An event record. -/
  | ev (e : Event)
  /-- An ENQUEUE response. -/
  | resp (r : EnqResponse)
  deriving DecidableEq, Repr

/-- What the response port returns (R71). -/
inductive PortResponse where
  /-- The response of an ENQUEUE (R74). -/
  | enqueue (r : EnqResponse)
  /-- The two words of a STATUS (R73). -/
  | status (word0 word1 : BitVec 32)
  deriving DecidableEq, Repr

/-- The machine: the spec's tuple (st, pend, seqctr, rxbuf, fault), its parameters, and the traffic at its ports. -/
structure State where
  /-- The parameters in force (R8), which no operation writes (R29; log entry 1). -/
  cfg : Config
  /-- The parameters the environment fixes after the RESETs to come, one entry a RESET, oldest first (R153; log entry
  21). With none left the parameters in force stay. -/
  paramIn : List Config
  /-- The engine state (R20). -/
  st : EngineState
  /-- The pending-command slot (R21); none is `pend_valid = 0`. -/
  pend : Option Pending
  /-- The sequence counter (R23). -/
  seqctr : Byte
  /-- The receive buffer, oldest byte first (R24). -/
  rxbuf : List Byte
  /-- The sticky fault flag (R25). -/
  fault : Bool
  /-- The output trace, oldest output first (00_scope.md R12). -/
  trace : List Output
  /-- What the operation just performed returned at the response port (R71; log entry 9). -/
  resp : Option PortResponse
  /-- The operations the line side offers, oldest first (R144; log entry 5). -/
  lineIn : List PortOp
  /-- The operations the host side offers, oldest first (R144; log entry 5). -/
  hostIn : List PortOp
  /-- The model's own: how many offers of both sides have been settled (20_memory.md R53; log entry 4). -/
  turn : Nat
  deriving DecidableEq, Repr

/-- Why a step stops with a fault. None is reachable from reset (R33): each stands where a state that breaks R33 would
make the block read what the spec says is never read, or build what is never a frame. All are safe. -/
inductive Fault where
  /-- Raised by POLL and ACK where the slot they read is empty although `st` is not IDLE (R21, R32). Safe. -/
  | emptySlot
  /-- Raised where a command frame's payload would not fit the length byte (R81, 93_implementation_defined.md U1):
  by CMDF, and by POLL in WAIT_ACK. Safe. -/
  | buildOverlong
  /-- Raised by RX_BYTE if its parse loop did not end within the bound of R90; R90 says it always ends. Safe. -/
  | receiverStuck
  deriving DecidableEq, Repr

/-- Why a step has no meaning. -/
inductive Refusal where
  /-- Raised by an arm of exec whose instruction is not modelled. Safe. -/
  | notModelled (mnemonic : String)
  /-- Raised by a step whose parameters have `POLL_ID = ACK_ID` (00_scope.md R9). Safe. -/
  | equalReservedIds
  /-- Raised by a step offered an ENQUEUE whose payload port carries at most 255 bytes but not exactly `l`: the
  environment's duty of R72 is broken, and the spec gives no effect. Safe. -/
  | payloadPortMismatch
  deriving DecidableEq, Repr

/-- The state of R32 under given parameters, with nothing output, nothing offered and no other parameters to come. -/
def State.resetWith (c : Config) : State :=
  { cfg := c, paramIn := [], st := .idle, pend := none, seqctr := 0, rxbuf := [], fault := false,
    trace := [], resp := none, lineIn := [], hostIn := [], turn := 0 }

/-- The state at power-on (R32, R151), under the reference configuration TC0 (log entry 2). -/
def State.reset : State := State.resetWith Config.tc0

end Sys2Proof.Machine
end

