-- ==== Sys2Proof/Machine/Flags.lean ====
section
/-! DEFINITION. The two flags of the block (10_state.md R26), each with every way it is written and read, and the valid
bit of the slot. -/

namespace Sys2Proof.Machine

/-- `pend_valid` (R21). -/
def State.pendValid (s : State) : Bool := s.pend.isSome

/-- `pend.acked` as the status view shows it: 0 where the slot is empty (R30). -/
def State.ackedFlag (s : State) : Bool :=
  match s.pend with
  | none => false
  | some p => p.acked

/-- `pend.acked <- 1` (R110). -/
def Pending.markAcked (p : Pending) : Pending := { p with acked := true }

/-- `fault <- 1`: sticky until RESET (R25, R133). -/
def State.raiseFault (s : State) : State := { s with fault := true }

/-- `fault <- 0`, by RESET only (R25, R150). -/
def State.clearFault (s : State) : State := { s with fault := false }

/-- The bits of a flag in the status view (R30). -/
def flagBit (b : Bool) : BitVec 1 := BitVec.ofBool b

end Sys2Proof.Machine
end

