-- ==== Sys2Proof/Machine/Operands.lean ====
section
/-! DEFINITION. The values instructions compute and the codes outputs carry: sequence allocation (R104), the outbound
frames (R101, R102), the status view (R30), the response word (R74), the event records (R138), the conditions (R131). -/

namespace Sys2Proof.Machine

/-- `next_seq(c) = (c mod 255) + 1` (R104). -/
def nextSeq (c : Byte) : Byte := BitVec.ofNat 8 (c.toNat % Config.seqMax + 1)

/-- `ACKF = build(ACK_ID, [])` (R101). -/
def ackFrame (c : Config) : List Byte := frameWith c c.ackId [] (checkByte c c.ackId [])

/-- `CMDF(p) = build(p.cmd, p.seq :: p.payload)` (R102), of the fields of `p`; none where `build` fails (R81). -/
def cmdFrame (c : Config) (cmd seq : Byte) (payload : List Byte) : Option (List Byte) :=
  build c cmd (seq :: payload)

/-- The record an accepted ENQUEUE stores (R103). -/
def freshPending (cmd seq : Byte) (payload : List Byte) : Pending :=
  { cmd := cmd, seq := seq, payload := payload, retries := 0, acked := false }

/-- `pend.retries <- pend.retries + 1` (R108), done only below MAX_RETRY, where it does not wrap. -/
def Pending.countRetry (p : Pending) : Pending := { p with retries := p.retries + 1 }

/-! ## State code and status view (R20, R30) -/

/-- The 2-bit code of `st` (R20). -/
def stCode : EngineState → BitVec 2
  | .idle => 0
  | .waitAck => 1
  | .waitData => 2

/-- Reading a 2-bit state code; 0b11 is never held, and is refused (93_implementation_defined.md U14). -/
def stOfCode? (v : BitVec 2) : Option EngineState :=
  if v = 0 then some .idle else if v = 1 then some .waitAck else if v = 2 then some .waitData else none

/-- STATUS0 (R30). -/
def statusWord0 (s : State) : BitVec 32 :=
  match s.pend with
  | none => (0 : BitVec 8) ++ s.seqctr ++ (0 : BitVec 8) ++ flagBit s.fault ++ (0 : BitVec 3) ++ (0 : BitVec 1)
      ++ (0 : BitVec 1) ++ stCode s.st
  | some p => p.cmd ++ s.seqctr ++ p.seq ++ flagBit s.fault ++ p.retries ++ flagBit p.acked
      ++ (1 : BitVec 1) ++ stCode s.st

/-- PEND_LEN (R30). -/
def pendLen (s : State) : Nat :=
  match s.pend with
  | none => 0
  | some p => p.payload.length

/-- STATUS1 (R30). -/
def statusWord1 (s : State) : BitVec 32 :=
  (0 : BitVec 15) ++ BitVec.ofNat 8 (pendLen s) ++ BitVec.ofNat 9 s.rxbuf.length

/-! ## Response word (R74) -/

/-- The 10-bit response word: code in bits 1..0, seq in bits 9..2. -/
def responseWord : EnqResponse → BitVec 10
  | .accept seq => seq ++ (0 : BitVec 2)
  | .busy => (0 : BitVec 8) ++ (1 : BitVec 2)
  | .faultLen => (0 : BitVec 8) ++ (2 : BitVec 2)

/-- Reading a response word; what R74 never returns is refused (93_implementation_defined.md U14). -/
def responseOfWord? (w : BitVec 10) : Option EnqResponse :=
  let seq : Byte := w.extractLsb' 2 8
  let code : BitVec 2 := w.extractLsb' 0 2
  if code = 0 then (if seq = 0 then none else some (.accept seq))
  else if seq = 0 then (if code = 1 then some .busy else if code = 2 then some .faultLen else none)
  else none

/-! ## Event records (R138) -/

/-- The bytes of an event record. -/
def eventRecord : Event → List Byte
  | .queued seq cmd => [0x01, seq, cmd]
  | .sent seq attempt => [0x02, seq, attempt.setWidth 8]
  | .acknowledged seq => [0x03, seq]
  | .data cmd payload => 0x04 :: cmd :: lenByte payload :: payload
  | .finished seq => [0x05, seq]
  | .timeout seq => [0x06, seq]
  | .diagChecksum cmd len => [0x07, cmd, len]
  | .diagAnomaly st cmd => [0x08, (stCode st).setWidth 8, cmd]

/-! ## Conditions (R131) -/

/-- The numeric code of a condition. -/
def conditionCode : Condition → Nat
  | .busy => 1
  | .faultLen => 2
  | .checksumMismatch => 3
  | .timeout => 4
  | .anomaly => 5

/-- The condition an output reports, if it reports one. -/
def reportedCondition? : Output → Option Condition
  | .resp .busy => some .busy
  | .resp .faultLen => some .faultLen
  | .ev (.diagChecksum _ _) => some .checksumMismatch
  | .ev (.timeout _) => some .timeout
  | .ev (.diagAnomaly _ _) => some .anomaly
  | .resp (.accept _) => none
  | .tx _ => none
  | .ev (.queued _ _) => none
  | .ev (.sent _ _) => none
  | .ev (.acknowledged _) => none
  | .ev (.data _ _) => none
  | .ev (.finished _) => none

end Sys2Proof.Machine
end

