-- ==== Sys2Proof/Machine/Ops.lean ====
section
/-! DEFINITION. The named operations every meaning is written over: emitting (00_scope.md R12), responding (R73, R74),
the slot (R21), the receive buffer (R24), the fault (R133), sending the two outbound frames (R101, R102), RESET's
writes (R150) and the parameters fixed after it (R153), and taking the next offered operation (20_memory.md R52, R53). -/

namespace Sys2Proof.Machine

/-- Go on with `f` where `o` is a next state; a fault or a refusal stays. -/
def andThen (o : Host.Outcome State Fault Refusal) (f : State → Host.Outcome State Fault Refusal) :
    Host.Outcome State Fault Refusal :=
  match o with
  | .next s => f s
  | .fault r => .fault r
  | .refused r => .refused r

/-! ## Outputs (00_scope.md R12, 20_memory.md R54) -/

/-- Append one output to the trace. -/
def State.emit (s : State) (o : Output) : State := { s with trace := s.trace ++ [o] }

/-- `emit Tx(f)`. -/
def State.emitTx (s : State) (f : List Byte) : State := s.emit (.tx f)

/-- `emit Ev(e)`. -/
def State.emitEv (s : State) (e : Event) : State := s.emit (.ev e)

/-- `respond R`: the response is at the response port, and in the trace (00_scope.md R7). -/
def State.respond (s : State) (r : EnqResponse) : State :=
  { s.emit (.resp r) with resp := some (.enqueue r) }

/-- `respond (STATUS0, STATUS1)` (R73): at the response port only, the trace gets nothing. -/
def State.respondStatus (s : State) (word0 word1 : BitVec 32) : State :=
  { s with resp := some (.status word0 word1) }

/-- `raise Fault(FAULT_LEN)` (00_scope.md R12, R133): the one operation that records a fault. -/
def State.raiseFaultLen (s : State) : State := s.raiseFault.respond .faultLen

/-! ## The slot, the engine state, the buffer -/

/-- `st <- v`. -/
def State.setSt (s : State) (v : EngineState) : State := { s with st := v }

/-- `pend <- p`. -/
def State.setPend (s : State) (p : Pending) : State := { s with pend := some p }

/-- `pend <- none; st <- IDLE`: the end of a transaction (R109, R112). -/
def State.closeSlot (s : State) : State := { s with pend := none, st := .idle }

/-- `seqctr <- v`. -/
def State.setSeqctr (s : State) (v : Byte) : State := { s with seqctr := v }

/-- `rxbuf <- l`. -/
def State.setRxbuf (s : State) (l : List Byte) : State := { s with rxbuf := l }

/-- `rxbuf <- rxbuf ++ [b]` (R83). -/
def State.appendRx (s : State) (b : Byte) : State := s.setRxbuf (s.rxbuf ++ [b])

/-- The five writes of RESET (R150); what is not the block's own, the trace, the offers and the parameters, stays (log
entry 8). -/
def State.resetBlock (s : State) : State :=
  { s.clearFault with st := .idle, pend := none, seqctr := 0, rxbuf := [] }

/-- Between a RESET and the next operation the environment fixes the parameters (70_reset_and_hazards.md R153): the
oldest set it has ready, or, with none ready, those in force once more (log entry 21). -/
def State.takeParams (s : State) : State :=
  match s.paramIn with
  | [] => s
  | c :: cs => { s with cfg := c, paramIn := cs }

/-! ## Sending (R101, R102) -/

/-- `emit Tx(ACKF)`. -/
def State.sendAckFrame (s : State) : State := s.emitTx (ackFrame s.cfg)

/-- `emit Tx(CMDF(..))`; a frame that cannot be built is a fault and never a frame (R81). -/
def State.sendCmdFrame (s : State) (cmd seq : Byte) (payload : List Byte) : Host.Outcome State Fault Refusal :=
  match cmdFrame s.cfg cmd seq payload with
  | none => .fault .buildOverlong
  | some f => .next (s.emitTx f)

/-! ## Taking the next operation (20_memory.md R52, R53) -/

/-- The operation the step performs, and the state with that offer taken. Each side's offers are taken in its own
order; where both sides offer, the free value `Config.lineFirst` says who goes first (R53, log entry 4). -/
def State.takeOffer (s : State) : Option (PortOp × State) :=
  match s.lineIn, s.hostIn with
  | [], [] => none
  | x :: xs, [] => some (x, { s with lineIn := xs })
  | [], y :: ys => some (y, { s with hostIn := ys })
  | x :: xs, y :: ys =>
    if Config.lineFirst s.turn then some (x, { s with lineIn := xs, turn := s.turn + 1 })
    else some (y, { s with hostIn := ys, turn := s.turn + 1 })

/-- The state an operation starts in: nothing returned yet at the response port (log entry 9). -/
def State.clearResp (s : State) : State := { s with resp := none }

end Sys2Proof.Machine
end

