-- ==== Sys2Proof/Machine/Ports.lean ====
section
/-! DEFINITION. The port operations that do not receive: STATUS (30_encoding.md R73), ENQUEUE (41_protocol_fsm.md R103),
RESET (70_reset_and_hazards.md R150). -/

namespace Sys2Proof.Machine

/-- STATUS (R73): respond with the status view; nothing written, no trace output. -/
def execStatus (s : State) : Host.Outcome State Fault Refusal :=
  .next (s.respondStatus (statusWord0 s) (statusWord1 s))

/-- The accepted ENQUEUE (R103): assign the next sequence number, fill the slot, respond, then report QUEUED. -/
def claimSlot (cmd : Byte) (payload : List Byte) (s : State) : State :=
  let q := nextSeq s.seqctr
  ((((s.setSeqctr q).setPend (freshPending cmd q payload)).setSt .waitAck).respond (.accept q)).emitEv (.queued q cmd)

/-- ENQUEUE (R103): the length is tested first, then the engine state (R140 (b)). Any command id is taken. -/
def execEnqueue (cmd : Byte) (payload : List Byte) (s : State) : Host.Outcome State Fault Refusal :=
  if Config.maxEnqPayload < payload.length then .next s.raiseFaultLen
  else if s.st = .idle then .next (claimSlot cmd payload s)
  else .next (s.respond .busy)

/-- RESET (R150): the five writes, no outputs. -/
def execReset (s : State) : Host.Outcome State Fault Refusal := .next s.resetBlock

end Sys2Proof.Machine
end

