-- ==== Sys2Proof/Machine/Frames.lean ====
section
/-! DEFINITION. The inbound frame classes of 30_encoding.md R70: the transition each runs in each engine state
(41_protocol_fsm.md R100, R105 to R114) and the dropping of a bad frame (40_frame_codec.md R88). -/

namespace Sys2Proof.Machine

/-! ## The transitions -/

/-- `emit Ev(DIAG_ANOMALY(st, cmd))` and nothing else (R106, R107, R111, R114, R136). -/
def reportAnomaly (cmd : Byte) (s : State) : State := s.emitEv (.diagAnomaly s.st cmd)

/-- R105: IDLE, poll. -/
def pollIdle (s : State) : State := s.sendAckFrame

/-- R108: WAIT_ACK, poll, retries left. The attempt reported is the count after the increment. -/
def pollResend (p : Pending) (s : State) : Host.Outcome State Fault Refusal :=
  andThen (s.sendCmdFrame p.cmd p.seq p.payload) fun t =>
    .next ((t.setPend p.countRetry).emitEv (.sent p.seq p.countRetry.retries))

/-- R109: WAIT_ACK, poll, retries exhausted. -/
def pollTimeout (p : Pending) (s : State) : State := (s.sendAckFrame.emitEv (.timeout p.seq)).closeSlot

/-- R112: WAIT_DATA, poll: the transaction is finished. -/
def pollFinish (p : Pending) (s : State) : State := (s.sendAckFrame.emitEv (.finished p.seq)).closeSlot

/-- R110: WAIT_ACK, ack. -/
def ackAccept (p : Pending) (s : State) : State :=
  ((s.setPend p.markAcked).setSt .waitData).emitEv (.acknowledged p.seq)

/-- R113: WAIT_DATA, data: the event first, then the data-ack. -/
def dataDeliver (cmd : Byte) (payload : List Byte) (s : State) : State :=
  (s.emitEv (.data cmd payload)).sendAckFrame

/-! ## The meanings -/

/-- POLL (R100, R105, R108, R109, R112). The poll's payload is not used (R63). In WAIT_ACK every retry count that is
not below MAX_RETRY goes to R109, as R100's table says (log entry 13). -/
def execPoll (_payload : List Byte) (s : State) : Host.Outcome State Fault Refusal :=
  match s.st with
  | .idle => .next (pollIdle s)
  | .waitAck =>
    match s.pend with
    | none => .fault .emptySlot
    | some p => if p.retries.toNat < Config.maxRetry then pollResend p s else .next (pollTimeout p s)
  | .waitData =>
    match s.pend with
    | none => .fault .emptySlot
    | some p => .next (pollFinish p s)

/-- ACK (R100, R106, R110, R114). The ack's payload is not used (R63); its command id is `ACK_ID`. -/
def execAck (_payload : List Byte) (s : State) : Host.Outcome State Fault Refusal :=
  match s.st with
  | .idle => .next (reportAnomaly s.cfg.ackId s)
  | .waitAck =>
    match s.pend with
    | none => .fault .emptySlot
    | some p => .next (ackAccept p s)
  | .waitData => .next (reportAnomaly s.cfg.ackId s)

/-- DATA (R100, R107, R111, R113). The sequence-echo is not looked at (R121). -/
def execData (cmd : Byte) (payload : List Byte) (s : State) : Host.Outcome State Fault Refusal :=
  match s.st with
  | .idle => .next (reportAnomaly cmd s)
  | .waitAck => .next (reportAnomaly cmd s)
  | .waitData => .next (dataDeliver cmd payload s)

/-- BADFRAME (R88, R134): one diagnostic, and the first byte of the buffer, the rejected frame's SYNC1, is dropped. -/
def execBadFrame (cmd : Byte) (payload : List Byte) (_chk : Byte) (s : State) : Host.Outcome State Fault Refusal :=
  .next ((s.emitEv (.diagChecksum cmd (lenByte payload))).setRxbuf (s.rxbuf.drop 1))

/-- `on_frame(cmd, payload)` (R100): the one transition of a good frame, by its class. -/
def onFrame (cmd : Byte) (payload : List Byte) (s : State) : Host.Outcome State Fault Refusal :=
  match classify s.cfg cmd with
  | .poll => execPoll payload s
  | .ack => execAck payload s
  | .data => execData cmd payload s

end Sys2Proof.Machine
end

