-- ==== Sys2Proof/Machine/Receiver.lean ====
section
/-! DEFINITION. The receive half of the frame codec (40_frame_codec.md R83, R84): the parse step, its loop, RX_BYTE. -/

namespace Sys2Proof.Machine

/-- What one `parse_once` answers (R84). -/
inductive ParseResult where
  /-- NEED_MORE, with the state it leaves. -/
  | needMore (s : State)
  /-- PROGRESS, with the outcome of the dropped or dispatched frame. -/
  | progress (o : Host.Outcome State Fault Refusal)

/-- `parse_once` (R84): the sync detector, the waits and the checksum are `scan`; branch D drops the frame (R88), branch
E removes it and hands it to the state machine (R89). -/
def parseOnce (s : State) : ParseResult :=
  match scan s.cfg s.rxbuf with
  | .needMore kept => .needMore (s.setRxbuf kept)
  | .bad h => .progress (execBadFrame (frameCmd h) (framePayload h) (frameChk h) (s.setRxbuf h))
  | .good h => .progress (onFrame (frameCmd h) (framePayload h) (s.setRxbuf (h.drop (5 + frameLen h))))

/-- `repeat parse_once until NEED_MORE` (R83), at most `fuel` times; R90 bounds the iterations (log entry 12). -/
def parseLoop : Nat → State → Host.Outcome State Fault Refusal
  | 0, _ => .fault .receiverStuck
  | fuel + 1, s =>
    match parseOnce s with
    | .needMore t => .next t
    | .progress o => andThen o (parseLoop fuel)

/-- Resolve the buffer: the loop with the bound of R90, one iteration for each byte held and one more. -/
def resolveBuffer (s : State) : Host.Outcome State Fault Refusal := parseLoop (s.rxbuf.length + 1) s

/-- RX_BYTE (R83): append the byte, then parse until NEED_MORE. -/
def execRxByte (b : Byte) (s : State) : Host.Outcome State Fault Refusal := resolveBuffer (s.appendRx b)

end Sys2Proof.Machine
end

