-- ==== Sys2Proof/Machine/Transmit.lean ====
section
/-! DEFINITION. The outbound frames of 30_encoding.md R70: ACKF and CMDF. Their meaning is their transmission; the
transitions of 41_protocol_fsm.md perform them (log entry 16). -/

namespace Sys2Proof.Machine

/-- ACKF (R101): `emit Tx(build(ACK_ID, []))`. -/
def execAckf (s : State) : Host.Outcome State Fault Refusal := .next s.sendAckFrame

/-- CMDF (R102): `emit Tx(build(cmd, seq :: payload))`; a payload `build` cannot take is a fault (R81). -/
def execCmdf (cmd seq : Byte) (payload : List Byte) (s : State) : Host.Outcome State Fault Refusal :=
  s.sendCmdFrame cmd seq payload

end Sys2Proof.Machine
end

