-- ==== Sys2Proof/Machine/Dispatch.lean ====
section
/-! DEFINITION. One arm per row of spec/opcode_table.json. -/

namespace Sys2Proof.Machine

/-- The meaning of every instruction of the table. -/
def exec (i : Instr) (s : State) : Host.Outcome State Fault Refusal :=
  match i with
  | .status => Sys2Proof.Machine.execStatus s
  | .rxByte b => Sys2Proof.Machine.execRxByte b s
  | .enqueue cmd payload => Sys2Proof.Machine.execEnqueue cmd payload s
  | .reset => Sys2Proof.Machine.execReset s
  | .poll payload => Sys2Proof.Machine.execPoll payload s
  | .ack payload => Sys2Proof.Machine.execAck payload s
  | .data cmd payload => Sys2Proof.Machine.execData cmd payload s
  | .badFrame cmd payload chk => Sys2Proof.Machine.execBadFrame cmd payload chk s
  | .ackf => Sys2Proof.Machine.execAckf s
  | .cmdf cmd seq payload => Sys2Proof.Machine.execCmdf cmd seq payload s

end Sys2Proof.Machine
end

