-- ==== Sys2Proof/Machine/Fetch.lean ====
section
/-! DEFINITION. What a step performs: the next offered operation, decoded (30_encoding.md R72); what it adds after a RESET
(70_reset_and_hazards.md R153, log entry 21); and how an instruction
of the table is placed so that the next step performs it (log entries 14 and 15). -/

namespace Sys2Proof.Machine

/-- What a step finds at the operation port. -/
inductive Fetched where
  /-- Nothing is offered: the block is idle (70_reset_and_hazards.md R152). -/
  | idle
  /-- An operation, and the state it starts in. -/
  | run (i : Instr) (s : State)
  /-- The step has no meaning. -/
  | refuse (r : Refusal)

/-- Take and decode the next operation. Parameters with equal reserved ids are refused (R9). A
request fails to decode only where the payload port carries a number of bytes that R72 forbids. -/
def fetch (s : State) : Fetched :=
  if s.cfg.legal then
    match s.takeOffer with
    | none => .idle
    | some (op, t) =>
      match decodeOp op with
      | .ok i => .run i t.clearResp
      | .error _ => .refuse .payloadPortMismatch
  else .refuse .equalReservedIds

/-- What a step adds to an operation it has performed: after a RESET, and after nothing else, the environment fixes the
parameters (70_reset_and_hazards.md R153), before the next operation is taken. -/
def settle (i : Instr) (o : Host.Outcome State Fault Refusal) : Host.Outcome State Fault Refusal :=
  if i = .reset then andThen o fun t => .next t.takeParams else o

/-! ## Placing an instruction of the table -/

/-- Offer an operation on the line side, in front, and nothing on the host side. -/
def State.offerLine (s : State) (op : PortOp) : State := { s with lineIn := op :: s.lineIn, hostIn := [] }

/-- Offer an operation on the host side, in front, and nothing on the line side. -/
def State.offerHost (s : State) (op : PortOp) : State := { s with hostIn := op :: s.hostIn, lineIn := [] }

/-- Offer an operation on the side that issues it (R144): RX_BYTE and RESET on the line side, the others on the host
side. -/
def State.offer (s : State) (op : PortOp) : State :=
  if op.word.extractLsb' 0 1 = 1 then s.offerLine op else s.offerHost op

/-- Have the receiver hold all of a frame but its last byte, and the line side offer that byte. -/
def State.placeFrame (s : State) (bytes : List Byte) : State :=
  (s.setRxbuf bytes.dropLast).offerLine { word := opWord 1 (bytes.getLast?.getD 0) 0, payload := [] }

/-- The line side completes a poll with no payload. -/
def State.placePoll (s : State) : State :=
  s.placeFrame (frameWith s.cfg s.cfg.pollId [] (checkByte s.cfg s.cfg.pollId []))

/-- A transaction whose command has not been sent yet, so that the next poll sends it (R108). -/
def State.placePending (s : State) (cmd seq : Byte) (payload : List Byte) : State :=
  ((s.setSeqctr seq).setPend (freshPending cmd seq payload)).setSt .waitAck

/-- Place an encoded instruction so that the very next step performs it: an operation is offered; an inbound frame is
completed by the byte offered; an outbound frame is called for by a poll, in the state that sends it. -/
def State.placeImage (s : State) : Image → State
  | .port op => s.offer op
  | .inbound bytes => s.placeFrame bytes
  | .outbound bytes =>
    match decodeTx s.cfg bytes with
    | .ok (.cmdf cmd seq payload) => (s.placePending cmd seq payload).placePoll
    | .ok _ => (s.closeSlot).placePoll
    | .error _ => s.placePoll

end Sys2Proof.Machine
end

