-- ==== Sys2Proof/Machine/Step.lean ====
section
/-! DEFINITION. One step: one port operation, atomically (00_scope.md R7, 20_memory.md R50). -/

namespace Sys2Proof.Machine

/-- One step: perform the next operation, after a RESET under parameters fixed anew. With no operation offered nothing happens (41_protocol_fsm.md R116, 70_reset_and_hazards.md R152). -/
def step (s : State) : Host.Outcome State Fault Refusal :=
  match fetch s with
  | .idle => .next s
  | .run i t => settle i (exec i t)
  | .refuse r => .refused r

/-- `s` with the instruction that a word of the opcode table stands for placed where the next step takes it
(log entries 14 and 15). -/
def State.withFetchWord (s : State) (nbits w : Nat) : State := s.placeImage (tableImage nbits w)

end Sys2Proof.Machine
end

