-- ==== Sys2Proof/WellFormed.lean ====
section
/-! DEFINITION. Which instructions have an encoding: the legal values of each operand (R22, R61, R63, R72, R82). -/

namespace Sys2Proof

/-- The operands an instruction's encoding can carry, under the parameters `c`. -/
def wellFormed (c : Config) : Instr → Bool
  | .status => true
  | .rxByte _ => true
  | .enqueue _ payload => decide (payload.length ≤ Config.maxPayload)
  | .reset => true
  | .poll payload => decide (payload.length ≤ Config.maxPayload)
  | .ack payload => decide (payload.length ≤ Config.maxPayload)
  | .data cmd payload => decide (payload.length ≤ Config.maxPayload) && (cmd != c.pollId) && (cmd != c.ackId)
  | .badFrame cmd payload chk => decide (payload.length ≤ Config.maxPayload) && (chk != checkByte c cmd payload)
  | .ackf => true
  | .cmdf _ seq payload => decide (payload.length ≤ Config.maxEnqPayload) && (seq != 0)

end Sys2Proof
end

