-- ==== Sys2Proof/Safety.lean ====
section
/-! DEFINITION. The terms claims about runs are made in: the invariants of 10_state.md R33, runs of operations, what a
run outputs, the life cycle of a transaction (41_protocol_fsm.md R122), and what counts as a failed run (R133). -/

namespace Sys2Proof.Machine

/-! ## Good states -/

/-- R133: a state with `fault = 1` is a failed run. -/
def State.failed (s : State) : Bool := s.fault

/-- I1 (R33, R21): the slot is full exactly when `st` is not IDLE. -/
abbrev State.SlotAgrees (s : State) : Prop := s.pendValid = true ↔ s.st ≠ .idle

/-- I2 (R33, R26): `pend.acked` is set exactly when `st` is WAIT_DATA. -/
abbrev State.AckedAgrees (s : State) : Prop := s.ackedFlag = true ↔ s.st = .waitData

/-- I3 (R33): the pending sequence number is the counter's value, and in 1..255. -/
abbrev State.SeqAgrees (s : State) : Prop := ∀ p ∈ s.pend, p.seq = s.seqctr ∧ p.seq ≠ 0

/-- I4 (R33): at most MAX_RETRY retries, at most 254 payload bytes. -/
abbrev State.PendBounded (s : State) : Prop := ∀ p ∈ s.pend, p.retries.toNat ≤ 5 ∧ p.payload.length ≤ 254

/-- The forms (a) to (d) of R24 for the receive buffer between steps. -/
abbrev RxForm (c : Config) (buf : List Byte) : Prop :=
  buf = [] ∨ buf = [c.sync1] ∨
    (buf.take 2 = [c.sync1, c.sync2] ∧ (buf.length < 4 ∨ buf.length < 5 + frameLen buf))

/-- I5 (R33): the buffer has one of the forms of R24. -/
abbrev State.RxAgrees (s : State) : Prop := RxForm s.cfg s.rxbuf

/-- I1 to I4: what the state machine alone keeps. -/
abbrev State.EngineInv (s : State) : Prop := s.SlotAgrees ∧ s.AckedAgrees ∧ s.SeqAgrees ∧ s.PendBounded

/-- R33: I1 to I5. -/
abbrev State.Inv (s : State) : Prop := s.EngineInv ∧ s.RxAgrees

/-! ## What a step takes (20_memory.md R52, R53) -/

/-- A step in `s` takes the offer `op` and performs it in `u`: of the one side that offers, the first; where both offer,
the first of the side the free value of log entry 4 picks, the model's own `turn` moving on. The response port is empty
in `u` (log entry 9). -/
def State.Takes (s : State) (op : PortOp) (u : State) : Prop :=
  (∃ rest, s.lineIn = op :: rest ∧ s.hostIn = [] ∧ u = { s with lineIn := rest, resp := none }) ∨
  (∃ rest, s.hostIn = op :: rest ∧ s.lineIn = [] ∧ u = { s with hostIn := rest, resp := none }) ∨
  (∃ rest, s.lineIn = op :: rest ∧ s.hostIn ≠ [] ∧ Config.lineFirst s.turn = true ∧
    u = { s with lineIn := rest, resp := none, turn := s.turn + 1 }) ∨
  (∃ rest, s.hostIn = op :: rest ∧ s.lineIn ≠ [] ∧ Config.lineFirst s.turn = false ∧
    u = { s with hostIn := rest, resp := none, turn := s.turn + 1 })

/-- A request that breaks the environment's duty of R72: an ENQUEUE whose payload port carries a number of bytes that is
neither `l` nor above 255 (log entry 6). -/
def Mismatched (op : PortOp) : Prop :=
  op.word.extractLsb' 0 2 = 2 ∧ op.payload.length ≤ 255 ∧ op.payload.length ≠ (op.word.extractLsb' 10 8).toNat

/-! ## Runs -/

/-- Perform instructions one after another, stopping at the first fault or refusal. -/
def runInstrs : List Instr → State → Host.Outcome State Fault Refusal
  | [], s => .next s
  | i :: l, s => andThen (exec i s) (runInstrs l)

/-- Feed bytes by RX_BYTE, one a step. -/
def feed : List Byte → State → Host.Outcome State Fault Refusal
  | [], s => .next s
  | b :: l, s => andThen (exec (.rxByte b) s) (feed l)

/-- What the source's chunked read does with the same bytes (R94): append all of them, then parse until NEED_MORE. -/
def feedChunk (l : List Byte) (s : State) : Host.Outcome State Fault Refusal :=
  resolveBuffer (s.setRxbuf (s.rxbuf ++ l))

/-! ## The frames the block sends, byte by byte -/

/-- The bytes of ACKF as R101 writes them out. -/
def ackBytes (c : Config) : List Byte := [c.sync1, c.sync2, c.ackId, 0, c.sync1 ^^^ c.sync2 ^^^ c.ackId]

/-- The bytes of a frame as R60 and R62 write them out. -/
def wireFrame (c : Config) (cmd : Byte) (p : List Byte) : List Byte :=
  [c.sync1, c.sync2, cmd, BitVec.ofNat 8 p.length] ++ p ++
    [c.sync1 ^^^ c.sync2 ^^^ cmd ^^^ BitVec.ofNat 8 p.length ^^^ xorFold p]

/-- The bytes of CMDF for a pending record (R102): its payload behind its sequence byte. -/
def cmdBytes (c : Config) (q : Pending) : List Byte := wireFrame c q.cmd (q.seq :: q.payload)

/-! ## Outputs -/

/-- The frames among some outputs. -/
def txFrames : List Output → List (List Byte)
  | [] => []
  | .tx f :: l => f :: txFrames l
  | .ev _ :: l => txFrames l
  | .resp _ :: l => txFrames l

/-- The sequence numbers of the ACCEPT responses among some outputs. -/
def acceptedSeqs : List Output → List Byte
  | [] => []
  | .resp (.accept q) :: l => q :: acceptedSeqs l
  | .resp .busy :: l => acceptedSeqs l
  | .resp .faultLen :: l => acceptedSeqs l
  | .tx _ :: l => acceptedSeqs l
  | .ev _ :: l => acceptedSeqs l

/-- The sequence numbers `l`, assigned one after another, start after the counter value `c` (R104, R120): each is one
more than the one before, 255 is followed by 1. -/
def SeqChain : Byte → List Byte → Prop
  | _, [] => True
  | c, q :: l => q.toNat = (if c.toNat = 255 then 1 else c.toNat + 1) ∧ SeqChain q l

/-! ## The life cycle of a transaction (R122) -/

/-- How far a transaction has come, as the event records show it. -/
inductive Life where
  /-- No transaction is open. -/
  | closed
  /-- QUEUED with this sequence number, and so many SENT. -/
  | waiting (seq : Byte) (sends : Nat)
  /-- ACKNOWLEDGED. -/
  | acked (seq : Byte)
  deriving DecidableEq, Repr

/-- How an event may follow (R122); none where R122 forbids it. -/
def Life.after (l : Life) (e : Event) : Option Life :=
  match e, l with
  | .queued q _, .closed => some (.waiting q 0)
  | .sent q k, .waiting q' n =>
    if q = q' ∧ k.toNat = n + 1 ∧ n < 5 then some (.waiting q (n + 1)) else none
  | .acknowledged q, .waiting q' _ => if q = q' then some (.acked q) else none
  | .data _ _, .acked q => some (.acked q)
  | .finished q, .acked q' => if q = q' then some .closed else none
  | .timeout q, .waiting q' n => if q = q' ∧ n = 5 then some .closed else none
  | .diagChecksum _ _, l => some l
  | .diagAnomaly _ _, l => some l
  | .queued _ _, _ => none
  | .sent _ _, _ => none
  | .acknowledged _, _ => none
  | .data _ _, _ => none
  | .finished _, _ => none
  | .timeout _, _ => none

/-- Follow the events of some outputs. -/
def Life.follow : Life → List Output → Option Life
  | l, [] => some l
  | l, .ev e :: os =>
    match l.after e with
    | none => none
    | some l' => Life.follow l' os
  | l, .tx _ :: os => Life.follow l os
  | l, .resp _ :: os => Life.follow l os

/-- Where the state's own transaction stands. -/
def State.life (s : State) : Life :=
  match s.st, s.pend with
  | .waitAck, some p => .waiting p.seq p.retries.toNat
  | .waitData, some p => .acked p.seq
  | _, _ => .closed

/-! ## Damaging a frame (R93) -/

/-- `f` with bit `k` of byte `j` inverted. -/
def flipBit (f : List Byte) (j k : Nat) : List Byte := f.modify j fun b => b ^^^ (1#8 <<< k)

end Sys2Proof.Machine
end

