-- ==== Sys2Proof/Certificates/Slice0/Obligations.lean ====
section
/-! DEFINITION. The statements for the provers, from the numbered rules of spec/. Each docstring names the rule. -/

open Sys2Proof Sys2Proof.Machine

/-! ## The codec -/

/-- R80: the fold, and that it does not depend on the order of the bytes. -/
def Obligations.XorFoldIgnoresOrder : Prop :=
  xorFold [] = 0 ∧ (∀ (x : Byte) (l : List Byte), xorFold (x :: l) = x ^^^ xorFold l) ∧
  (∀ l m : List Byte, l.Perm m → xorFold l = xorFold m) ∧ xorFold [0xFA, 0xFB, 0x41, 0x00] = 0x40

/-- R60, R62, R81: `build` lays a frame out as R60 says, with the check byte of R62, so that the XOR of all its bytes
is 0; a payload longer than 255 bytes gives no frame. -/
def Obligations.BuildFollowsTheLayout : Prop :=
  ∀ (c : Config) (cmd : Byte) (p : List Byte),
    (p.length ≤ 255 → build c cmd p = some (wireFrame c cmd p) ∧ (wireFrame c cmd p).length = p.length + 5 ∧
      xorFold (wireFrame c cmd p) = 0) ∧
    (255 < p.length → build c cmd p = none)

/-- R69: the operands of a complete frame at the head of a buffer. -/
def Obligations.FrameOperandsAreRead : Prop :=
  ∀ (c : Config) (cmd : Byte) (p : List Byte) (k : Byte) (rest : List Byte), p.length ≤ 255 →
    frameCmd (frameWith c cmd p k ++ rest) = cmd ∧ frameLen (frameWith c cmd p k ++ rest) = p.length ∧
    framePayload (frameWith c cmd p k ++ rest) = p ∧ frameChk (frameWith c cmd p k ++ rest) = k ∧
    (chkOk (frameWith c cmd p k ++ rest) = true ↔ xorFold (frameHead c cmd p) = k)

/-- R85 (and the search of R84 branch A): the pair found is the first one, and none is found only where there is none. -/
def Obligations.SyncDetectorFindsFirstPair : Prop :=
  ∀ (c : Config) (buf : List Byte),
    (∀ i, firstPair c buf = some i →
      buf[i]? = some c.sync1 ∧ buf[i + 1]? = some c.sync2 ∧
      ∀ j, j < i → ¬ (buf[j]? = some c.sync1 ∧ buf[j + 1]? = some c.sync2)) ∧
    (firstPair c buf = none → ∀ j, ¬ (buf[j]? = some c.sync1 ∧ buf[j + 1]? = some c.sync2))

/-- R86 (the spec's decisions D7, and D9: no event for discarded bytes): where a buffer holds no sync pair, all of it is
dropped but a final `SYNC1`, and nothing else changes, no output; fed one byte a step to a receiver that holds nothing or
a lone `SYNC1`, such bytes leave the same behind, lone first sync bytes among them or not. -/
def Obligations.NoiseLeavesNoTrace : Prop :=
  (∀ (c : Config) (buf : List Byte), keptTail c buf = if buf.getLast? = some c.sync1 then [c.sync1] else []) ∧
  (∀ s : State, firstPair s.cfg s.rxbuf = none →
    parseOnce s = .needMore { s with rxbuf := keptTail s.cfg s.rxbuf }) ∧
  (∀ (s : State) (l : List Byte), s.rxbuf = [] ∨ s.rxbuf = [s.cfg.sync1] → firstPair s.cfg (s.rxbuf ++ l) = none →
    feed l s = .next { s with rxbuf := keptTail s.cfg (s.rxbuf ++ l) })

/-- R87: with the pair at index 0 the receiver waits for 4 and then for 5 + N bytes and leaves everything as it is; with
5 + N bytes, whatever N, it does not wait. -/
def Obligations.ReceiverWaitsForWholeFrame : Prop :=
  ∀ (s : State) (l : List Byte), s.rxbuf = s.cfg.sync1 :: s.cfg.sync2 :: l →
    ((s.rxbuf.length < 4 ∨ s.rxbuf.length < 5 + frameLen s.rxbuf) → parseOnce s = .needMore s) ∧
    (4 ≤ s.rxbuf.length → 5 + frameLen s.rxbuf ≤ s.rxbuf.length → ∀ t, parseOnce s ≠ .needMore t)

/-- R87, R157: a header and fewer than 5 + N bytes, fed one by one to an empty receiver, are held, and nothing else
changes. That the lone SYNC1 fed first is held is R86, the spec's decision D7 (log entry 20). -/
def Obligations.HeldBytesChangeNothingElse : Prop :=
  ∀ (s : State) (x n : Byte) (l : List Byte), s.rxbuf = [] → l.length < 1 + n.toNat →
    feed (s.cfg.sync1 :: s.cfg.sync2 :: x :: n :: l) s =
      .next { s with rxbuf := s.cfg.sync1 :: s.cfg.sync2 :: x :: n :: l }

/-- R89: a good frame at the head is removed, exactly 5 + N bytes, and its id and payload go to `on_frame`. -/
def Obligations.GoodFrameIsRemovedAndDispatched : Prop :=
  ∀ (s : State) (cmd : Byte) (p rest : List Byte), p.length ≤ 255 → s.rxbuf = wireFrame s.cfg cmd p ++ rest →
    parseOnce s = .progress (onFrame cmd p { s with rxbuf := rest })

/-- R88 (the spec's decision D8): BADFRAME completes in every state, with one diagnostic and the first byte of the
buffer dropped, nothing else; and a frame with a wrong check byte at the head of the buffer is handled so, the state
machine not being called. The form of the diagnostic is the spec's decision D14. -/
def Obligations.BadFrameDropsOneByte : Prop :=
  (∀ (s : State) (cmd : Byte) (p : List Byte) (k : Byte),
    exec (.badFrame cmd p k) s = .next { s with
      rxbuf := s.rxbuf.tail
      trace := s.trace ++ [.ev (.diagChecksum cmd (BitVec.ofNat 8 p.length))] }) ∧
  (∀ (s : State) (cmd : Byte) (p : List Byte) (k : Byte) (rest : List Byte), p.length ≤ 255 →
    k ≠ checkByte s.cfg cmd p → s.rxbuf = frameWith s.cfg cmd p k ++ rest →
    parseOnce s = .progress (exec (.badFrame cmd p k) s))

/-- R88, R91 (derived by the spec): where the body of a bad frame is itself a good frame, the byte that completes the
bad one drops it and dispatches the inner one, in the same step, then goes on with what follows. That the inner frame is
found is the spec's decision D8, the form of the diagnostic D14, its place before the inner frame's outputs D15 (log
entry 20). -/
def Obligations.FrameInsideBadFrameIsFound : Prop :=
  ∀ (s : State) (outer cmd k : Byte) (p : List Byte), p.length ≤ 250 →
    s.rxbuf = frameHead s.cfg outer (wireFrame s.cfg cmd p) → k ≠ checkByte s.cfg outer (wireFrame s.cfg cmd p) →
    firstPair s.cfg s.rxbuf.tail = some 3 →
    exec (.rxByte k) s = andThen (onFrame cmd p { s with
      rxbuf := [k]
      trace := s.trace ++ [.ev (.diagChecksum outer (BitVec.ofNat 8 (p.length + 5)))] }) resolveBuffer

/-- R93 (derived by the spec): one inverted bit of a payload byte or of the check byte makes the frame a bad one. -/
def Obligations.SingleBitErrorIsDetected : Prop :=
  ∀ (c : Config) (cmd : Byte) (p : List Byte) (j k : Nat), p.length ≤ 255 → 4 ≤ j → j < p.length + 5 → k < 8 →
    scan c (flipBit (wireFrame c cmd p) j k) = .bad (flipBit (wireFrame c cmd p) j k)

/-- R83, R90: the loop of RX_BYTE runs `parse_once` until it answers NEED_MORE, and never stops for want of iterations. -/
def Obligations.ParseLoopRunsUntilNeedMore : Prop :=
  (∀ (s t : State), parseOnce s = .needMore t → resolveBuffer s = .next t) ∧
  (∀ (s : State) (o : Host.Outcome State Fault Refusal), parseOnce s = .progress o →
    resolveBuffer s = andThen o resolveBuffer) ∧
  (∀ (b : Byte) (s : State), exec (.rxByte b) s = resolveBuffer { s with rxbuf := s.rxbuf ++ [b] })

/-- R83, R90, R24 (the completion of RX_BYTE): in every state whose slot is full exactly outside IDLE and holds at most
254 bytes, RX_BYTE completes; it leaves a buffer of a form of R24 and of at most 259 bytes (and, from such a form, holds
at most RXCAP bytes with the byte appended), appends to the trace, and writes no parameter, no counter, no fault flag,
no response and no offer. That a lone SYNC1 is kept (form (b) of R24) is the spec's decision D7. -/
def Obligations.RxByteAlwaysCompletes : Prop :=
  ∀ (s : State) (b : Byte), s.SlotAgrees → s.PendBounded →
    ∃ t, exec (.rxByte b) s = .next t ∧ RxForm s.cfg t.rxbuf ∧ t.rxbuf.length ≤ 259 ∧
      (s.RxAgrees → (s.rxbuf ++ [b]).length ≤ Config.rxCap) ∧
      (∃ out, t.trace = s.trace ++ out) ∧ t.cfg = s.cfg ∧ t.paramIn = s.paramIn ∧ t.seqctr = s.seqctr ∧
      t.fault = s.fault ∧ t.resp = s.resp ∧ t.lineIn = s.lineIn ∧ t.hostIn = s.hostIn ∧ t.turn = s.turn

/-- R92 (derived by the spec): fed to an empty receiver, or to one that holds a lone `SYNC1` where the sync bytes
differ, a built frame is held up to its last byte and then dispatched exactly once, with no other output. That a held
SYNC1 does not hide the frame rests on the spec's decision D7 (log entry 20). -/
def Obligations.FrameRoundTripThroughReceiver : Prop :=
  ∀ (s : State) (cmd : Byte) (p : List Byte), p.length ≤ 255 →
    (s.rxbuf = [] ∨ (s.rxbuf = [s.cfg.sync1] ∧ s.cfg.sync1 ≠ s.cfg.sync2)) →
    feed (wireFrame s.cfg cmd p).dropLast s = .next { s with rxbuf := (wireFrame s.cfg cmd p).dropLast } ∧
    feed (wireFrame s.cfg cmd p) s = onFrame cmd p { s with rxbuf := [] }

/-- R94 (derived by the spec): feeding a stream one byte a step does what one read of all of it does. The receiver is
the one the spec's decisions D7 and D8 complete (log entry 20). -/
def Obligations.ChunkingDoesNotMatter : Prop :=
  ∀ (s : State) (l : List Byte), s.RxAgrees → feed l s = feedChunk l s

/-! ## The state machine -/

/-- R100 with R63: the one transition of a frame is that of its class; `on_frame` neither reads nor writes `rxbuf`. That
the class is by command id alone is the spec's decision D10 (log entry 20). -/
def Obligations.FrameClassSelectsTransition : Prop :=
  ∀ (s : State) (cmd : Byte) (p l : List Byte),
    (cmd = s.cfg.pollId → onFrame cmd p s = exec (.poll p) s) ∧
    (cmd ≠ s.cfg.pollId → cmd = s.cfg.ackId → onFrame cmd p s = exec (.ack p) s) ∧
    (cmd ≠ s.cfg.pollId → cmd ≠ s.cfg.ackId → onFrame cmd p s = exec (.data cmd p) s) ∧
    onFrame cmd p { s with rxbuf := l } = andThen (onFrame cmd p s) fun t => .next { t with rxbuf := l }

/-- R105: a poll in IDLE is answered with the bare ack and changes nothing else. -/
def Obligations.PollInIdleSendsAck : Prop :=
  ∀ (s : State) (p : List Byte), s.st = .idle →
    exec (.poll p) s = .next { s with trace := s.trace ++ [.tx (ackBytes s.cfg)] }

/-- R108 (its SENT event is the spec's decision D14): a poll in WAIT_ACK with retries left sends the command frame,
counts the retry, and reports the attempt. The place of SENT after the frame is the spec's decision D15 (log entry 20). -/
def Obligations.PollResendsCommand : Prop :=
  ∀ (s : State) (p : List Byte) (q : Pending), s.st = .waitAck → s.pend = some q → q.retries.toNat < 5 →
    q.payload.length ≤ 254 →
    exec (.poll p) s = .next { s with
      pend := some { q with retries := BitVec.ofNat 3 (q.retries.toNat + 1) }
      trace := s.trace ++
        [.tx (cmdBytes s.cfg q), .ev (.sent q.seq (BitVec.ofNat 3 (q.retries.toNat + 1)))] }

/-- R109: a poll in WAIT_ACK after MAX_RETRY sends answers with the bare ack, reports TIMEOUT, clears the slot. That the
frame comes before the event is the spec's decision D15 (log entry 20). -/
def Obligations.PollTimesOut : Prop :=
  ∀ (s : State) (p : List Byte) (q : Pending), s.st = .waitAck → s.pend = some q → q.retries = 5 →
    exec (.poll p) s = .next { s with
      st := .idle
      pend := none
      trace := s.trace ++ [.tx (ackBytes s.cfg), .ev (.timeout q.seq)] }

/-- R112: a poll in WAIT_DATA answers with the bare ack, reports FINISHED, clears the slot. That the frame comes before
the event is the spec's decision D15 (log entry 20). -/
def Obligations.PollFinishesTransaction : Prop :=
  ∀ (s : State) (p : List Byte) (q : Pending), s.st = .waitData → s.pend = some q →
    exec (.poll p) s = .next { s with
      st := .idle
      pend := none
      trace := s.trace ++ [.tx (ackBytes s.cfg), .ev (.finished q.seq)] }

/-- R110 (its ACKNOWLEDGED event is the spec's decision D14): an ack in WAIT_ACK marks the command acknowledged, whatever
the retry count, and moves to WAIT_DATA. -/
def Obligations.AckIsAccepted : Prop :=
  ∀ (s : State) (p : List Byte) (q : Pending), s.st = .waitAck → s.pend = some q →
    exec (.ack p) s = .next { s with
      st := .waitData
      pend := some { q with acked := true }
      trace := s.trace ++ [.ev (.acknowledged q.seq)] }

/-- R106, R114 (the spec's decisions D13, D14): an ack in IDLE or WAIT_DATA is reported and ignored. -/
def Obligations.StrayAckIsAnomaly : Prop :=
  ∀ (s : State) (p : List Byte), s.st ≠ .waitAck →
    exec (.ack p) s = .next { s with trace := s.trace ++ [.ev (.diagAnomaly s.st s.cfg.ackId)] }

/-- R107, R111 (the spec's decisions D12, D14): a data frame in IDLE or WAIT_ACK is reported and ignored, not acked. -/
def Obligations.StrayDataIsAnomaly : Prop :=
  ∀ (s : State) (cmd : Byte) (p : List Byte), s.st ≠ .waitData →
    exec (.data cmd p) s = .next { s with trace := s.trace ++ [.ev (.diagAnomaly s.st cmd)] }

/-- R113, with the bytes of R101: a data frame in WAIT_DATA is passed on whole, then acked; nothing else changes. That
the data-ack is the bare ack frame is the spec's decision D11, that the event comes before it the spec's decision D15 (log
entry 20). -/
def Obligations.DataIsDeliveredAndAcked : Prop :=
  ∀ (s : State) (cmd : Byte) (p : List Byte), s.st = .waitData →
    exec (.data cmd p) s = .next { s with trace := s.trace ++ [.ev (.data cmd p), .tx (ackBytes s.cfg)] }

/-- R101: the bare ack frame, sent. That the data-ack is this frame too is the spec's decision D11 (log entry 20). -/
def Obligations.AckFrameIsSent : Prop :=
  ∀ s : State, exec .ackf s = .next { s with trace := s.trace ++ [.tx (ackBytes s.cfg)] }

/-- R102, R81: the command frame, sent with its sequence byte before the payload and length byte 1 + len; a payload that
does not fit stops by name and sends no frame (log entry 11). -/
def Obligations.CommandFrameIsSent : Prop :=
  ∀ (s : State) (cmd q : Byte) (p : List Byte),
    (p.length ≤ 254 → exec (.cmdf cmd q p) s =
      .next { s with trace := s.trace ++ [.tx (wireFrame s.cfg cmd (q :: p))] }) ∧
    (254 < p.length → exec (.cmdf cmd q p) s = .fault .buildOverlong)

/-- R63, R121 (the spec's decisions D10, D19): what a poll or an ack carries makes no difference: fed to an empty
receiver, two such frames with different payloads do the same. That the lone SYNC1 fed first is held is R86, the spec's
decision D7 (log entry 20). -/
def Obligations.PollAndAckPayloadIsIgnored : Prop :=
  ∀ (s : State) (id : Byte) (p p' : List Byte), s.rxbuf = [] → (id = s.cfg.pollId ∨ id = s.cfg.ackId) →
    p.length ≤ 255 → p'.length ≤ 255 →
    feed (wireFrame s.cfg id p) s = feed (wireFrame s.cfg id p') s

/-- R118 (derived by the spec), by R108 and R109: from an unsent command, n polls send the same command frame n times
for n up to 5; the sixth poll answers with the bare ack and one TIMEOUT, and the machine is in IDLE. The polls carry no
payload (PollResendsCommand and PollTimesOut speak of every payload). That SENT is reported at every attempt is the
spec's decision D14, the place of each event after its frame D15 (log entry 20). -/
def Obligations.RetryBudgetIsFive : Prop :=
  ∀ (s : State) (q : Pending), s.st = .waitAck → s.pend = some q → q.retries = 0 → q.payload.length ≤ 254 →
    (∀ n, n ≤ 5 → runInstrs (List.replicate n (.poll [])) s = .next { s with
      pend := some { q with retries := BitVec.ofNat 3 n }
      trace := s.trace ++
        (List.range n).flatMap fun k => [.tx (cmdBytes s.cfg q), .ev (.sent q.seq (BitVec.ofNat 3 (k + 1)))] }) ∧
    runInstrs (List.replicate 6 (.poll [])) s = .next { s with
      st := .idle
      pend := none
      trace := s.trace ++
        ((List.range 5).flatMap fun k => [.tx (cmdBytes s.cfg q), .ev (.sent q.seq (BitVec.ofNat 3 (k + 1)))]) ++
        [.tx (ackBytes s.cfg), .ev (.timeout q.seq)] }

/-! ## ENQUEUE, RESET, STATUS -/

/-- R103, R104 (its QUEUED event is the spec's decision D14): an ENQUEUE in IDLE takes the next sequence number, fills
the slot, responds and reports; any command id is taken, the reserved ones too. The response's place before the event is
the spec's decision D15 (log entry 20). -/
def Obligations.EnqueueIsAccepted : Prop :=
  ∀ (s : State) (cmd : Byte) (p : List Byte), s.st = .idle → p.length ≤ 254 →
    exec (.enqueue cmd p) s = .next { s with
      st := .waitAck
      seqctr := BitVec.ofNat 8 (s.seqctr.toNat % 255 + 1)
      pend := some { cmd := cmd, seq := BitVec.ofNat 8 (s.seqctr.toNat % 255 + 1), payload := p, retries := 0,
                     acked := false }
      resp := some (.enqueue (.accept (BitVec.ofNat 8 (s.seqctr.toNat % 255 + 1))))
      trace := s.trace ++ [.resp (.accept (BitVec.ofNat 8 (s.seqctr.toNat % 255 + 1))),
        .ev (.queued (BitVec.ofNat 8 (s.seqctr.toNat % 255 + 1)) cmd)] }

/-- R119, R132 (derived by the spec): an ENQUEUE while a transaction is in flight gets BUSY and changes nothing. -/
def Obligations.EnqueueWhileBusyChangesNothing : Prop :=
  ∀ (s : State) (cmd : Byte) (p : List Byte), s.st ≠ .idle → p.length ≤ 254 →
    exec (.enqueue cmd p) s = .next { s with
      resp := some (.enqueue .busy)
      trace := s.trace ++ [.resp .busy] }

/-- R133, R140 (b) (the spec's decisions D16, D27): an ENQUEUE of more than 254 bytes sets the fault flag and responds
FAULT_LEN, in every engine state, and changes nothing else. -/
def Obligations.OverlongEnqueueSetsFault : Prop :=
  ∀ (s : State) (cmd : Byte) (p : List Byte), 254 < p.length →
    exec (.enqueue cmd p) s = .next { s with
      fault := true
      resp := some (.enqueue .faultLen)
      trace := s.trace ++ [.resp .faultLen] }

/-- R56: after an accepted ENQUEUE a second one is not accepted. That an overlong second one gets FAULT_LEN, and before
BUSY, is the spec's decisions D16 and D27. -/
def Obligations.TwoEnqueuesCannotBothSucceed : Prop :=
  ∀ (s : State) (cmd cmd' : Byte) (p p' : List Byte), s.st = .idle → p.length ≤ 254 →
    ∃ t u, exec (.enqueue cmd p) s = .next t ∧ exec (.enqueue cmd' p') t = .next u ∧
      u.pend = t.pend ∧ u.seqctr = t.seqctr ∧ u.st = .waitAck ∧
      (u.resp = some (.enqueue .busy) ∨ u.resp = some (.enqueue .faultLen))

/-- R104, R120 (derived by the spec): over any run without RESET, the sequence numbers of the accepted ENQUEUEs follow one
another from the counter's value, 255 before 1 and never 0, and the counter holds the last of them. -/
def Obligations.SequenceNumbersFollowOneAnother : Prop :=
  ∀ (is : List Instr) (s t : State), Instr.reset ∉ is → runInstrs is s = .next t →
    ∃ out, t.trace = s.trace ++ out ∧ SeqChain s.seqctr (acceptedSeqs out) ∧
      t.seqctr = (acceptedSeqs out).getLastD s.seqctr ∧ 0 ∉ acceptedSeqs out

/-- R150, R32 (the spec's decisions D6, D25, D28): RESET, in every state, leaves the reset values, outputs nothing, and
keeps the parameters and what is outside the block (log entry 8); the parameters fixed after it are the step's
(ParametersAreFixedFromResetToReset). That exec leaves the response port as it was is log entry 8 (DEDUCED); the step has emptied
it before, which is log entry 9 (DESIGN CHOICE). -/
def Obligations.ResetClearsTheBlock : Prop :=
  ∀ s : State, exec .reset s = .next { State.resetWith s.cfg with
    paramIn := s.paramIn, trace := s.trace, resp := s.resp, lineIn := s.lineIn, hostIn := s.hostIn, turn := s.turn } ∧
    (State.resetWith s.cfg).st = .idle ∧ (State.resetWith s.cfg).pend = none ∧ (State.resetWith s.cfg).seqctr = 0 ∧
    (State.resetWith s.cfg).rxbuf = [] ∧ (State.resetWith s.cfg).fault = false

/-- R30, R73 (the spec's decision D22): STATUS answers the two words, field by field, and writes nothing else. -/
def Obligations.StatusShowsTheState : Prop :=
  ∀ s : State, ∃ w0 w1 : BitVec 32, exec .status s = .next { s with resp := some (.status w0 w1) } ∧
    (w0.extractLsb' 0 2).toNat = (match s.st with | .idle => 0 | .waitAck => 1 | .waitData => 2) ∧
    w0.extractLsb' 2 1 = BitVec.ofBool s.pend.isSome ∧
    w0.extractLsb' 3 1 = BitVec.ofBool (s.pend.any fun q => q.acked) ∧
    w0.extractLsb' 4 3 = (match s.pend with | none => 0 | some q => q.retries) ∧
    w0.extractLsb' 7 1 = BitVec.ofBool s.fault ∧
    w0.extractLsb' 8 8 = (match s.pend with | none => 0 | some q => q.seq) ∧
    w0.extractLsb' 16 8 = s.seqctr ∧
    w0.extractLsb' 24 8 = (match s.pend with | none => 0 | some q => q.cmd) ∧
    (s.rxbuf.length < 512 → (w1.extractLsb' 0 9).toNat = s.rxbuf.length) ∧
    (∀ q, s.pend = some q → q.payload.length < 256 → (w1.extractLsb' 9 8).toNat = q.payload.length) ∧
    (s.pend = none → w1.extractLsb' 9 8 = 0) ∧
    w1.extractLsb' 17 15 = 0

/-- R74 (the spec's decisions D2, D16): the fields of the response word, and that it is read back; 0b11 is refused. -/
def Obligations.ResponseWordIsReadBack : Prop :=
  (∀ q : Byte, (responseWord (.accept q)).extractLsb' 0 2 = 0 ∧ (responseWord (.accept q)).extractLsb' 2 8 = q) ∧
  responseWord .busy = 0x001 ∧ responseWord .faultLen = 0x002 ∧
  (∀ r : EnqResponse, r ≠ .accept 0 → responseOfWord? (responseWord r) = some r) ∧
  (∀ w : BitVec 10, w.extractLsb' 0 2 = 3 → responseOfWord? w = none)

/-- R138 (the spec's decision D14): the bytes of each record, and that they tell every event from every other. -/
def Obligations.EventRecordsAreDistinct : Prop :=
  (∀ e e' : Event, eventRecord e = eventRecord e' → e = e') ∧
  (∀ q c n : Byte, ∀ l : List Byte, eventRecord (.queued q c) = [0x01, q, c] ∧
    (∀ k : BitVec 3, ∃ b : Byte, b.toNat = k.toNat ∧ eventRecord (.sent q k) = [0x02, q, b]) ∧
    eventRecord (.acknowledged q) = [0x03, q] ∧
    eventRecord (.data c l) = [0x04, c, BitVec.ofNat 8 l.length] ++ l ∧
    eventRecord (.finished q) = [0x05, q] ∧ eventRecord (.timeout q) = [0x06, q] ∧
    eventRecord (.diagChecksum c n) = [0x07, c, n] ∧ eventRecord (.diagAnomaly .idle c) = [0x08, 0x00, c] ∧
    eventRecord (.diagAnomaly .waitAck c) = [0x08, 0x01, c] ∧
    eventRecord (.diagAnomaly .waitData c) = [0x08, 0x02, c])

/-! ## The ports and the step -/

/-- A STEP RUNS THE DECODED OPERATION (R7, R52, R53): the step takes an offer (`State.Takes`: whose turn it is, log
entry 4, and the emptied response port, log entry 9) and is the meaning of the operation decoded. After a RESET alone it
goes on: where the environment has parameters ready they are in force from there on (R153, log entry 21). The atomic
step, the open order and the fixing of parameters are the spec's decisions D1, D20 and D26. -/
def Obligations.StepRunsTheDecodedOperation : Prop :=
  ∀ (s u : State) (op : PortOp) (i : Instr), s.cfg.pollId ≠ s.cfg.ackId → s.Takes op u → decodeOp op = .ok i →
    (i ≠ .reset → step s = exec i u) ∧
    (i = .reset → s.paramIn = [] → step s = exec i u) ∧
    (∀ c cs, i = .reset → s.paramIn = c :: cs →
      step s = andThen (exec i u) fun t => .next { t with cfg := c, paramIn := cs })

/-- R52, R53: what the step's `fetch` takes. Under legal parameters, with nothing offered it takes nothing; with something
offered it takes exactly one operation, the first of one side, leaves every other offer in its order, and runs that
operation, or refuses it where R72's duty is broken (log entry 6). The operation and the state it runs in are the one pair
of `State.Takes`: which side, where both offer, is the free value of log entry 4; the emptied response port is log entry 9.
With equal reserved ids it takes nothing and refuses (R9, log entry 3). -/
def Obligations.ExactlyOneOfferIsTaken : Prop :=
  (∀ s : State, s.cfg.pollId = s.cfg.ackId → fetch s = .refuse .equalReservedIds) ∧
  (∀ s : State, s.cfg.pollId ≠ s.cfg.ackId → s.lineIn = [] → s.hostIn = [] → fetch s = .idle) ∧
  (∀ s : State, s.cfg.pollId ≠ s.cfg.ackId → (s.lineIn ≠ [] ∨ s.hostIn ≠ []) → ∃ op u,
    (∀ i, decodeOp op = .ok i → fetch s = .run i u) ∧
    (∀ e, decodeOp op = .error e → fetch s = .refuse .payloadPortMismatch) ∧
    ((s.lineIn = op :: u.lineIn ∧ u.hostIn = s.hostIn) ∨ (s.hostIn = op :: u.hostIn ∧ u.lineIn = s.lineIn)) ∧
    ∀ op' u', s.Takes op' u' ↔ op' = op ∧ u' = u)

/-- R53, R140 (a) (the spec's decision D20): where both sides offer, the step performs exactly one of the two first offers
(`settle`: with what a RESET brings after it, R153) and leaves the other side's offers alone. Which of the two is the free
value of log entry 4. The operation starts with the response port emptied, which is the model's choice (log entry 9). -/
def Obligations.OneOfTwoOffersIsPerformed : Prop :=
  ∀ (s : State) (x y : PortOp) (xs ys : List PortOp) (i j : Instr), s.cfg.pollId ≠ s.cfg.ackId →
    s.lineIn = x :: xs → s.hostIn = y :: ys → decodeOp x = .ok i → decodeOp y = .ok j →
    step s = settle i (exec i { s with lineIn := xs, resp := none, turn := s.turn + 1 }) ∨
    step s = settle j (exec j { s with hostIn := ys, resp := none, turn := s.turn + 1 })

/-- R116, R152: with no operation offered nothing moves. That the block idles between operations rests on R152, which
the spec marks with its decision D25. -/
def Obligations.NothingMovesUnasked : Prop :=
  ∀ s : State, s.cfg.pollId ≠ s.cfg.ackId → s.lineIn = [] → s.hostIn = [] → step s = .next s

/-- R9, R72 (log entries 3 and 6): the two refusals of a step, when each is answered, and no others. Equal reserved ids
stop every step. An ENQUEUE whose payload port carries at most 255 bytes but not `l` stops the step that takes it,
whichever side offers it and whatever the other side offers. The payload port and the refusal of equal ids are the
spec's decisions D2 and D4. -/
def Obligations.RefusalsAreTheTwoNamed : Prop :=
  (∀ s : State, s.cfg.pollId = s.cfg.ackId → step s = .refused .equalReservedIds) ∧
  (∀ (s u : State) (op : PortOp), s.cfg.pollId ≠ s.cfg.ackId → s.Takes op u → Mismatched op →
    step s = .refused .payloadPortMismatch) ∧
  (∀ (s : State) (r : Refusal), step s = .refused r →
    (r = .equalReservedIds ∧ s.cfg.pollId = s.cfg.ackId) ∨
    (r = .payloadPortMismatch ∧ s.cfg.pollId ≠ s.cfg.ackId ∧ ∃ op u, s.Takes op u ∧ Mismatched op))

/-- R8, R153 (the spec's decision D26; log entry 21), R32, R150: a step that is not a RESET leaves the parameters and
those to come as they are. A RESET with parameters ready is followed by them, oldest first, and by the reset state (R32)
under them; with none ready the parameters in force stay. The reset values are the spec's decisions D6, D25 and D28;
that the trace and the other offers stay is log entry 8, the offers and the counter themselves log entries 5 and 4; the
response port, empty after the RESET, is the model's choice (log entry 9). -/
def Obligations.ParametersAreFixedFromResetToReset : Prop :=
  (∀ s t : State, step s = .next t → (t.cfg = s.cfg ∧ t.paramIn = s.paramIn) ∨
    ∃ op u, s.Takes op u ∧ decodeOp op = .ok .reset ∧ s.paramIn = t.cfg :: t.paramIn) ∧
  (∀ (s u : State) (op : PortOp), s.cfg.pollId ≠ s.cfg.ackId → s.Takes op u → op.word.extractLsb' 0 2 = 3 →
    (∀ c cs, s.paramIn = c :: cs → step s = .next { State.resetWith c with
      paramIn := cs, trace := s.trace, lineIn := u.lineIn, hostIn := u.hostIn, turn := u.turn }) ∧
    (s.paramIn = [] → step s = .next { State.resetWith s.cfg with
      trace := s.trace, lineIn := u.lineIn, hostIn := u.hostIn, turn := u.turn }))

/-- R72 (the spec's decision D2): every operation word decodes by its two `op` bits; ignored bits have no effect. That
an ENQUEUE whose payload port carries another number of bytes than `l` is refused, or, above 255 bytes, taken to be
faulted, is log entry 6. That a list too long is faulted is the spec's decision D16. -/
def Obligations.OperationWordsDecode : Prop :=
  ∀ (w : BitVec 18) (p : List Byte),
    (w.extractLsb' 0 2 = 0 → decodeOp { word := w, payload := p } = .ok .status) ∧
    (w.extractLsb' 0 2 = 1 → decodeOp { word := w, payload := p } = .ok (.rxByte (w.extractLsb' 2 8))) ∧
    (w.extractLsb' 0 2 = 2 → p.length = (w.extractLsb' 10 8).toNat →
      decodeOp { word := w, payload := p } = .ok (.enqueue (w.extractLsb' 2 8) p)) ∧
    (w.extractLsb' 0 2 = 2 → p.length ≤ 255 → p.length ≠ (w.extractLsb' 10 8).toNat →
      decodeOp { word := w, payload := p } = .error .payloadPortMismatch) ∧
    (w.extractLsb' 0 2 = 2 → 255 < p.length →
      decodeOp { word := w, payload := p } = .ok (.enqueue (w.extractLsb' 2 8) p)) ∧
    (w.extractLsb' 0 2 = 3 → decodeOp { word := w, payload := p } = .ok .reset)

/-- Words written out from 95_test_vectors.md section 4 and R77 (a sanity statement). The operation words are the spec's
decision D2; the frames are those of TC0, whose reserved ids are D4 (log entry 2). -/
def Obligations.SampleEncodingsDecode : Prop :=
  decodeOp { word := 0x003E9, payload := [] } = .ok (.rxByte 0xFA) ∧
  decodeOp { word := 0x0080E, payload := [0x00, 0x0C] } = .ok (.enqueue 0x03 [0x00, 0x0C]) ∧
  decodeOp { word := 0x00003, payload := [] } = .ok .reset ∧
  decodeOp { word := 0x00000, payload := [] } = .ok .status ∧
  decodeFrame Config.tc0 [0xFA, 0xFB, 0x41, 0x00, 0x40] = .ok (.poll [], []) ∧
  decodeFrame Config.tc0 [0xFA, 0xFB, 0x99, 0x03, 0x07, 0xAA, 0xBB, 0x8D] = .ok (.data 0x99 [0x07, 0xAA, 0xBB], []) ∧
  decodeTx Config.tc0 [0xFA, 0xFB, 0x42, 0x00, 0x43] = .ok .ackf ∧
  decodeTx Config.tc0 [0xFA, 0xFB, 0x03, 0x03, 0x01, 0x00, 0x0C, 0x0C] = .ok (.cmdf 0x03 0x01 [0x00, 0x0C])

/-- DECODE AND ENCODE AGREE, for every well-formed instruction with every operand at every value (R60, R72). The
operation word, and that the class is by command id alone, are the spec's decisions D2 and D10. -/
def Obligations.DecodeInvertsEncode : Prop :=
  ∀ (c : Config) (i : Instr), c.pollId ≠ c.ackId → wellFormed c i = true → decode c (encode c i) = .ok i

/-- What decodes is well-formed, whatever the bits (R63, R66, R72), but for the abstract ENQUEUE of more than 255 bytes,
which no word encodes (R72, log entry 6). The operation word, and that the class is by command id alone, are the spec's
decisions D2 and D10. -/
def Obligations.DecodedInstructionsAreWellFormed : Prop :=
  ∀ (c : Config) (m : Image) (i : Instr), decode c m = .ok i →
    wellFormed c i = true ∨ ∃ cmd p, i = .enqueue cmd p ∧ 255 < p.length

/-- R85, R88, R89 (the spec's decision D8 for the bad frame; log entry 20): the frame decoder reads no frame but one
whose very encoding is in the buffer. It begins at the first sync pair, so that what is discarded before it holds none,
and what is left is the rest, or, of a bad frame, all but its first byte. That the class is by command id alone is the
spec's decision D10. -/
def Obligations.InboundFramesAreReadExactly : Prop :=
  ∀ (c : Config) (buf rest : List Byte) (i : Instr), decodeFrame c buf = .ok (i, rest) →
    ∃ noise f tail, encode c i = .inbound f ∧ buf = noise ++ f ++ tail ∧ firstPair c buf = some noise.length ∧
      ((∃ cmd p k, i = .badFrame cmd p k ∧ rest = f.drop 1 ++ tail) ∨
       ((∀ cmd p k, i ≠ .badFrame cmd p k) ∧ rest = tail))

/-- R84, R88, R89, R100: one `parse_once` of the receiver performs the very frame that the frame decoder reads from its
buffer, and waits where the decoder reads none. POLL, ACK and DATA find their frame removed; BADFRAME finds the buffer
from the frame on and drops its first byte (the spec's decision D8; log entries 16 and 20). That the class is by command
id alone is the spec's decision D10. -/
def Obligations.ReceiverRunsTheDecodedFrame : Prop :=
  (∀ (s : State) (i : Instr) (rest : List Byte), decodeFrame s.cfg s.rxbuf = .ok (i, rest) →
    ∃ l, parseOnce s = .progress (exec i { s with rxbuf := l }) ∧
      ((∃ cmd p k, i = .badFrame cmd p k ∧ rest = l.drop 1) ∨
       ((∀ cmd p k, i ≠ .badFrame cmd p k) ∧ rest = l))) ∧
  (∀ (s : State) (e : Reject), decodeFrame s.cfg s.rxbuf = .error e →
    ∃ l, parseOnce s = .needMore { s with rxbuf := l })

/-! ## Rules about the whole machine -/

/-- R33, R24 (derived by the spec): every step keeps the five invariants. The values a RESET leaves and the lone SYNC1
kept are the spec's decisions D6, D25 and D7; the parameters after a RESET are log entry 21. -/
def Obligations.StepKeepsInvariants : Prop :=
  ∀ s t : State, s.Inv → step s = .next t → t.Inv

/-- The invariants of R33 hold at power-on, under every configuration (R32, R151). The reset values are the spec's
decisions D6, D25 and D28; State.reset is under TC0 (log entry 2), its empty trace, ports and lists the model's (log
entries 5, 8, 9, 21). -/
def Obligations.ResetMeetsInvariants : Prop :=
  State.reset.Inv ∧ ∀ c : Config, (State.resetWith c).Inv

/-- R130, R154: in a state that meets R33, under legal parameters, with ENQUEUE requests of `l` bytes (or of more than
255, log entry 6), a step always ends in a next state that meets R33 again: no operation is refused and nothing stops
the block. Where the environment keeps to R153, and has only legal parameters ready, the parameters stay legal too (log
entry 21). That there are no traps, that no operation is refused after reset, and that the sinks always accept (log
entry 7), are the spec's decisions D24, D25, D26 and D21. -/
def Obligations.GoodStatesNeverStop : Prop :=
  ∀ s : State, s.Inv → s.cfg.pollId ≠ s.cfg.ackId → (∀ op ∈ s.lineIn ++ s.hostIn, ¬ Mismatched op) →
    ∃ t, step s = .next t ∧ t.Inv ∧ (∀ op ∈ t.lineIn ++ t.hostIn, ¬ Mismatched op) ∧
      ((∀ c ∈ s.paramIn, c.pollId ≠ c.ackId) → t.cfg.pollId ≠ t.cfg.ackId ∧ ∀ c ∈ t.paramIn, c.pollId ≠ c.ackId)

/-- Where the model stops (log entries 10 and 11): POLL and ACK on an empty slot outside IDLE, a resend of a payload that
does not fit; each lies outside R33. With R33's I1 to I4 every well-formed instruction completes. -/
def Obligations.StopsLieOutsideTheInvariants : Prop :=
  (∀ (s : State) (p : List Byte), s.st ≠ .idle → s.pend = none → exec (.poll p) s = .fault .emptySlot) ∧
  (∀ (s : State) (p : List Byte), s.st = .waitAck → s.pend = none → exec (.ack p) s = .fault .emptySlot) ∧
  (∀ (s : State) (p : List Byte) (q : Pending), s.st = .waitAck → s.pend = some q → q.retries.toNat < 5 →
    254 < q.payload.length → exec (.poll p) s = .fault .buildOverlong) ∧
  (∀ (s : State) (i : Instr), s.EngineInv → wellFormed s.cfg i = true → ∃ t, exec i s = .next t ∧ t.EngineInv)

/-- R25, R29, R54, R139 (the spec's decision D28): no instruction writes a parameter, those to come, an offer (log entry
5) or the model's own counter (log entry 4); the trace only grows; the fault flag is cleared by RESET alone and set by
an ENQUEUE of more than 254 bytes alone. This is about `exec`: after a RESET the step, not the instruction, fixes the
parameters the environment has ready (R153, log entry 21). The one trace, the fault of an overlong ENQUEUE and the
constant parameters are the spec's decisions D15, D16 and D26. -/
def Obligations.OnlyResetAndOverlongEnqueueMoveFault : Prop :=
  ∀ (i : Instr) (s t : State), exec i s = .next t →
    t.cfg = s.cfg ∧ t.paramIn = s.paramIn ∧ t.lineIn = s.lineIn ∧ t.hostIn = s.hostIn ∧ t.turn = s.turn ∧
    (∃ out, t.trace = s.trace ++ out) ∧
    (s.failed = true → t.failed = false → i = .reset) ∧
    (s.failed = false → t.failed = true → ∃ cmd p, i = .enqueue cmd p ∧ 254 < p.length)

/-- R20, R23, R24 and R90: who writes what. `st` is written by ENQUEUE, the frame classes and RESET (an RX_BYTE performs
frames), `seqctr` by an accepted ENQUEUE and RESET, `rxbuf` by RX_BYTE, RESET and the drop of a bad frame. The drop of
one byte of a bad frame, and that stray frames change nothing, are the spec's decisions D8, D12 and D13 (log entry 20).
That the response port is written by STATUS and ENQUEUE alone rests on R71, R73 and R74 (the ports are the spec's
decision D2) and on what the model takes: that RESET keeps it (log entry 8, DEDUCED) and
that the step, not the instruction, empties it (log entry 9, DESIGN CHOICE). -/
def Obligations.WritersOfEachRegister : Prop :=
  ∀ (i : Instr) (s t : State), exec i s = .next t →
    (t.seqctr ≠ s.seqctr → i = .reset ∨ (∃ cmd p, i = .enqueue cmd p ∧ p.length ≤ 254 ∧ s.st = .idle)) ∧
    (t.rxbuf ≠ s.rxbuf → i = .reset ∨ (∃ b, i = .rxByte b) ∨ (∃ cmd p k, i = .badFrame cmd p k)) ∧
    ((t.st ≠ s.st ∨ t.pend ≠ s.pend) →
      i = .reset ∨ (∃ cmd p, i = .enqueue cmd p ∧ p.length ≤ 254 ∧ s.st = .idle) ∨ (∃ b, i = .rxByte b) ∨
      (∃ p, i = .poll p ∧ s.st ≠ .idle) ∨ (∃ p, i = .ack p ∧ s.st = .waitAck)) ∧
    (t.resp ≠ s.resp → i = .status ∨ (∃ cmd p, i = .enqueue cmd p))

/-- R117 (derived by the spec): what each instruction transmits. A poll is answered by exactly one frame, a data frame
by the bare ack in WAIT_DATA (its bytes are the spec's decision D11, log entry 20) and by nothing elsewhere; nothing
goes out on ENQUEUE, ack, bad frame, RESET or STATUS. That stray data and acks are not answered is the spec's decisions
D12 and D13 (log entry 20). -/
def Obligations.TransmitsOnlyWhenAllowed : Prop :=
  ∀ (s t : State) (out : List Output), t.trace = s.trace ++ out →
    (∀ p, exec (.poll p) s = .next t → txFrames out = [ackBytes s.cfg] ∨
      ∃ q, s.st = .waitAck ∧ s.pend = some q ∧ txFrames out = [cmdBytes s.cfg q]) ∧
    (∀ cmd p, exec (.data cmd p) s = .next t → txFrames out = if s.st = .waitData then [ackBytes s.cfg] else []) ∧
    (∀ i, (∃ cmd p, i = .enqueue cmd p) ∨ (∃ p, i = .ack p) ∨ (∃ cmd p k, i = .badFrame cmd p k) ∨ i = .reset ∨
      i = .status → exec i s = .next t → txFrames out = [])

/-- R131, R133, R135, R136, R140 (b), (c): the codes of the conditions, and what raises each, by engine state, frame
class and retry count. A poll raises TIMEOUT in WAIT_ACK with the retries spent (counts 6 and 7, which no run reaches,
as 5: log entry 13) and nothing elsewhere; an ack raises ANOMALY outside WAIT_ACK, a data frame outside WAIT_DATA, and
nothing there; a bad frame raises CHECKSUM_MISMATCH; an ENQUEUE FAULT_LEN or BUSY; RESET and STATUS nothing. The codes
are the spec's decisions D14 and D24; ANOMALY for data in WAIT_ACK is D12, for an ack in WAIT_DATA D13 (log entry 20);
FAULT_LEN is D16, and its precedence over BUSY D27. -/
def Obligations.ConditionsAreRaisedByTheirCause : Prop :=
  (conditionCode .busy = 1 ∧ conditionCode .faultLen = 2 ∧ conditionCode .checksumMismatch = 3 ∧
    conditionCode .timeout = 4 ∧ conditionCode .anomaly = 5) ∧
  ∀ (s t : State) (out : List Output), t.trace = s.trace ++ out →
    (∀ p q, s.st = .waitAck → s.pend = some q → 5 ≤ q.retries.toNat → onFrame s.cfg.pollId p s = .next t →
      out.filterMap reportedCondition? = [.timeout]) ∧
    (∀ p, (s.st ≠ .waitAck ∨ ∀ q ∈ s.pend, q.retries.toNat < 5) → onFrame s.cfg.pollId p s = .next t →
      out.filterMap reportedCondition? = []) ∧
    (∀ cmd p, cmd ≠ s.cfg.pollId → cmd = s.cfg.ackId → onFrame cmd p s = .next t →
      out.filterMap reportedCondition? = if s.st = .waitAck then [] else [.anomaly]) ∧
    (∀ cmd p, cmd ≠ s.cfg.pollId → cmd ≠ s.cfg.ackId → onFrame cmd p s = .next t →
      out.filterMap reportedCondition? = if s.st = .waitData then [] else [.anomaly]) ∧
    (∀ cmd p k, exec (.badFrame cmd p k) s = .next t → out.filterMap reportedCondition? = [.checksumMismatch]) ∧
    (∀ cmd p, exec (.enqueue cmd p) s = .next t → out.filterMap reportedCondition? =
      if 254 < p.length then [.faultLen] else if s.st = .idle then [] else [.busy]) ∧
    (∀ i, i = .reset ∨ i = .status → exec i s = .next t → out.filterMap reportedCondition? = [])

/-- R122 (derived by the spec): over any run without RESET, from a state that meets R33's I1 to I4, the event records
follow the life cycle of a transaction, from where the state's own transaction stands to where the last one stands. The
set of events, with SENT at every attempt, is the spec's decision D14, the diagnostics of stray frames D12 and D13 (log
entry 20). -/
def Obligations.EventsFollowTheLifeCycle : Prop :=
  ∀ (is : List Instr) (s t : State), Instr.reset ∉ is → s.EngineInv → runInstrs is s = .next t →
    ∃ out, t.trace = s.trace ++ out ∧ s.life.follow out = some t.life
end

