-- ==== Sys2Proof/Laws/Codec.lean ====
section
/-! SUPPORT. What the codec's functions do (40_frame_codec.md): the checksum, the fields of a frame, the sync detector. -/

namespace Sys2Proof

theorem xorFold_append (l m : List Byte) : xorFold (l ++ m) = xorFold l ^^^ xorFold m := by
  induction l with
  | nil => simp [xorFold]
  | cons x l ih => simp [xorFold, ih, BitVec.xor_assoc]

@[simp] theorem frameHead_length (c : Config) (cmd : Byte) (p : List Byte) :
    (frameHead c cmd p).length = p.length + 4 := by
  simp [frameHead]

@[simp] theorem frameWith_length (c : Config) (cmd : Byte) (p : List Byte) (k : Byte) :
    (frameWith c cmd p k).length = p.length + 5 := by
  simp [frameWith]

theorem lenByte_toNat (p : List Byte) (h : p.length ≤ 255) : (lenByte p).toNat = p.length := by
  simp only [lenByte, BitVec.toNat_ofNat]
  omega

/-! The fields of a buffer that begins with a whole frame (R69). -/

section Fields

variable (c : Config) (cmd : Byte) (p : List Byte) (k : Byte) (rest : List Byte)

@[simp] theorem frameCmd_frameWith : frameCmd (frameWith c cmd p k ++ rest) = cmd := rfl

theorem frameLen_frameWith (h : p.length ≤ 255) : frameLen (frameWith c cmd p k ++ rest) = p.length :=
  lenByte_toNat p h

theorem framePayload_frameWith (h : p.length ≤ 255) : framePayload (frameWith c cmd p k ++ rest) = p := by
  rw [framePayload, frameLen_frameWith c cmd p k rest h]
  simp [frameWith, frameHead]

theorem frameChk_frameWith (h : p.length ≤ 255) : frameChk (frameWith c cmd p k ++ rest) = k := by
  rw [frameChk, frameLen_frameWith c cmd p k rest h]
  have hl : (frameHead c cmd p).length = 4 + p.length := by simp [Nat.add_comm]
  simp [frameWith, List.getD, ← hl]

theorem chkOk_frameWith (h : p.length ≤ 255) :
    chkOk (frameWith c cmd p k ++ rest) = (checkByte c cmd p == k) := by
  rw [chkOk, frameChk_frameWith c cmd p k rest h, frameLen_frameWith c cmd p k rest h]
  have hl : (frameHead c cmd p).length = 4 + p.length := by simp [Nat.add_comm]
  simp [frameWith, checkByte, ← hl]

end Fields

/-! The sync detector (R84 to R86). -/

theorem firstPair_at_head (c : Config) (l : List Byte) : firstPair c (c.sync1 :: c.sync2 :: l) = some 0 := by
  simp [firstPair]

theorem scan_at_head (c : Config) (l : List Byte) :
    scan c (c.sync1 :: c.sync2 :: l) = scanAtPair (c.sync1 :: c.sync2 :: l) := by
  simp [scan, firstPair_at_head]

/-- A whole frame at the head of the buffer is accepted or dropped by its check byte alone. -/
theorem scan_frameWith (c : Config) (cmd : Byte) (p : List Byte) (k : Byte) (rest : List Byte)
    (h : p.length ≤ 255) :
    scan c (frameWith c cmd p k ++ rest) =
      if checkByte c cmd p = k then .good (frameWith c cmd p k ++ rest)
      else .bad (frameWith c cmd p k ++ rest) := by
  have hs : scan c (frameWith c cmd p k ++ rest) = scanAtPair (frameWith c cmd p k ++ rest) :=
    scan_at_head c _
  have h4 : ¬ (frameWith c cmd p k ++ rest).length < 4 := by simp; omega
  have h5 : ¬ (frameWith c cmd p k ++ rest).length < 5 + frameLen (frameWith c cmd p k ++ rest) := by
    rw [frameLen_frameWith c cmd p k rest h]; simp; omega
  rw [hs, scanAtPair, if_neg h4, if_neg h5, chkOk_frameWith c cmd p k rest h]
  simp

/-- The command id of a class: what R63 says of each. -/
theorem classify_cases (c : Config) (cmd : Byte) :
    (cmd = c.pollId ∧ classify c cmd = .poll) ∨
    (cmd ≠ c.pollId ∧ cmd = c.ackId ∧ classify c cmd = .ack) ∨
    (cmd ≠ c.pollId ∧ cmd ≠ c.ackId ∧ classify c cmd = .data) := by
  unfold classify
  by_cases h1 : cmd = c.pollId
  · exact .inl ⟨h1, by simp [h1]⟩
  · by_cases h2 : cmd = c.ackId
    · exact .inr (.inl ⟨h1, h2, by rw [if_neg h1, if_pos h2]⟩)
    · exact .inr (.inr ⟨h1, h2, by rw [if_neg h1, if_neg h2]⟩)

/-- `scanAtPair` answers NEED_MORE, or judges a complete frame at the head of the very buffer it was given. -/
theorem scanAtPair_cases (h : List Byte) :
    ((h.length < 4 ∨ h.length < 5 + frameLen h) ∧ scanAtPair h = .needMore h) ∨
    (5 + frameLen h ≤ h.length ∧ chkOk h = true ∧ scanAtPair h = .good h) ∨
    (5 + frameLen h ≤ h.length ∧ chkOk h = false ∧ scanAtPair h = .bad h) := by
  unfold scanAtPair
  by_cases h1 : h.length < 4
  · exact .inl ⟨.inl h1, by rw [if_pos h1]⟩
  · by_cases h2 : h.length < 5 + frameLen h
    · exact .inl ⟨.inr h2, by rw [if_neg h1, if_pos h2]⟩
    · cases hc : chkOk h with
      | true => exact .inr (.inl ⟨by omega, rfl, by simp [h1, h2]⟩)
      | false => exact .inr (.inr ⟨by omega, rfl, by simp [h1, h2]⟩)

/-- What the first pair's index says about the buffer from there on (R85). -/
theorem firstPair_drop (c : Config) : ∀ (buf : List Byte) (i : Nat), firstPair c buf = some i →
    ∃ l, buf.drop i = c.sync1 :: c.sync2 :: l
  | [], _, h => by simp [firstPair] at h
  | [_], _, h => by simp [firstPair] at h
  | a :: b :: l, i, h => by
    by_cases hp : a = c.sync1 ∧ b = c.sync2
    · rw [firstPair, if_pos hp] at h
      cases h
      exact ⟨l, by simp [hp.1, hp.2]⟩
    · rw [firstPair, if_neg hp, Option.map_eq_some_iff] at h
      obtain ⟨j, hj, rfl⟩ := h
      exact firstPair_drop c (b :: l) j hj

/-- Every answer of `scan`: NEED_MORE with no pair (R86), or the answer of branches B to D at the first pair. -/
theorem scan_cases (c : Config) (buf : List Byte) :
    (firstPair c buf = none ∧ scan c buf = .needMore (keptTail c buf)) ∨
    (∃ i l, firstPair c buf = some i ∧ buf.drop i = c.sync1 :: c.sync2 :: l ∧ scan c buf = scanAtPair (buf.drop i)) := by
  cases hp : firstPair c buf with
  | none => exact .inl ⟨rfl, by simp [scan, hp]⟩
  | some i =>
    obtain ⟨l, hl⟩ := firstPair_drop c buf i hp
    exact .inr ⟨i, l, rfl, hl, by simp [scan, hp]⟩

end Sys2Proof
end

