-- ==== Sys2Proof/Laws/State.lean ====
section
/-! SUPPORT. What each update of the state does to each field: one lemma a field and update, so that no proof unfolds
a record update. The composite operations reduce to these updates. -/

namespace Sys2Proof.Machine

variable (s : State)

/-! Emitting appends to the trace (00_scope.md R12). -/

@[simp] theorem State.emit_cfg (o : Output) : (s.emit o).cfg = s.cfg := rfl
@[simp] theorem State.emit_paramIn (o : Output) : (s.emit o).paramIn = s.paramIn := rfl
@[simp] theorem State.emit_st (o : Output) : (s.emit o).st = s.st := rfl
@[simp] theorem State.emit_pend (o : Output) : (s.emit o).pend = s.pend := rfl
@[simp] theorem State.emit_seqctr (o : Output) : (s.emit o).seqctr = s.seqctr := rfl
@[simp] theorem State.emit_rxbuf (o : Output) : (s.emit o).rxbuf = s.rxbuf := rfl
@[simp] theorem State.emit_fault (o : Output) : (s.emit o).fault = s.fault := rfl
@[simp] theorem State.emit_trace (o : Output) : (s.emit o).trace = s.trace ++ [o] := rfl
@[simp] theorem State.emit_resp (o : Output) : (s.emit o).resp = s.resp := rfl
@[simp] theorem State.emit_lineIn (o : Output) : (s.emit o).lineIn = s.lineIn := rfl
@[simp] theorem State.emit_hostIn (o : Output) : (s.emit o).hostIn = s.hostIn := rfl
@[simp] theorem State.emit_turn (o : Output) : (s.emit o).turn = s.turn := rfl

/-! Responding to an ENQUEUE (R74). -/

@[simp] theorem State.respond_cfg (r : EnqResponse) : (s.respond r).cfg = s.cfg := rfl
@[simp] theorem State.respond_paramIn (r : EnqResponse) : (s.respond r).paramIn = s.paramIn := rfl
@[simp] theorem State.respond_st (r : EnqResponse) : (s.respond r).st = s.st := rfl
@[simp] theorem State.respond_pend (r : EnqResponse) : (s.respond r).pend = s.pend := rfl
@[simp] theorem State.respond_seqctr (r : EnqResponse) : (s.respond r).seqctr = s.seqctr := rfl
@[simp] theorem State.respond_rxbuf (r : EnqResponse) : (s.respond r).rxbuf = s.rxbuf := rfl
@[simp] theorem State.respond_fault (r : EnqResponse) : (s.respond r).fault = s.fault := rfl
@[simp] theorem State.respond_trace (r : EnqResponse) : (s.respond r).trace = s.trace ++ [.resp r] := rfl
@[simp] theorem State.respond_resp (r : EnqResponse) : (s.respond r).resp = some (.enqueue r) := rfl
@[simp] theorem State.respond_lineIn (r : EnqResponse) : (s.respond r).lineIn = s.lineIn := rfl
@[simp] theorem State.respond_hostIn (r : EnqResponse) : (s.respond r).hostIn = s.hostIn := rfl
@[simp] theorem State.respond_turn (r : EnqResponse) : (s.respond r).turn = s.turn := rfl

/-! Responding to a STATUS (R73). -/

@[simp] theorem State.respondStatus_cfg (a b : BitVec 32) : (s.respondStatus a b).cfg = s.cfg := rfl
@[simp] theorem State.respondStatus_paramIn (a b : BitVec 32) : (s.respondStatus a b).paramIn = s.paramIn := rfl
@[simp] theorem State.respondStatus_st (a b : BitVec 32) : (s.respondStatus a b).st = s.st := rfl
@[simp] theorem State.respondStatus_pend (a b : BitVec 32) : (s.respondStatus a b).pend = s.pend := rfl
@[simp] theorem State.respondStatus_seqctr (a b : BitVec 32) : (s.respondStatus a b).seqctr = s.seqctr := rfl
@[simp] theorem State.respondStatus_rxbuf (a b : BitVec 32) : (s.respondStatus a b).rxbuf = s.rxbuf := rfl
@[simp] theorem State.respondStatus_fault (a b : BitVec 32) : (s.respondStatus a b).fault = s.fault := rfl
@[simp] theorem State.respondStatus_trace (a b : BitVec 32) : (s.respondStatus a b).trace = s.trace := rfl
@[simp] theorem State.respondStatus_resp (a b : BitVec 32) : (s.respondStatus a b).resp = some (.status a b) := rfl
@[simp] theorem State.respondStatus_lineIn (a b : BitVec 32) : (s.respondStatus a b).lineIn = s.lineIn := rfl
@[simp] theorem State.respondStatus_hostIn (a b : BitVec 32) : (s.respondStatus a b).hostIn = s.hostIn := rfl
@[simp] theorem State.respondStatus_turn (a b : BitVec 32) : (s.respondStatus a b).turn = s.turn := rfl

/-! Setting the fault flag (R25). -/

@[simp] theorem State.raiseFault_cfg : (s.raiseFault).cfg = s.cfg := rfl
@[simp] theorem State.raiseFault_paramIn : (s.raiseFault).paramIn = s.paramIn := rfl
@[simp] theorem State.raiseFault_st : (s.raiseFault).st = s.st := rfl
@[simp] theorem State.raiseFault_pend : (s.raiseFault).pend = s.pend := rfl
@[simp] theorem State.raiseFault_seqctr : (s.raiseFault).seqctr = s.seqctr := rfl
@[simp] theorem State.raiseFault_rxbuf : (s.raiseFault).rxbuf = s.rxbuf := rfl
@[simp] theorem State.raiseFault_fault : (s.raiseFault).fault = true := rfl
@[simp] theorem State.raiseFault_trace : (s.raiseFault).trace = s.trace := rfl
@[simp] theorem State.raiseFault_resp : (s.raiseFault).resp = s.resp := rfl
@[simp] theorem State.raiseFault_lineIn : (s.raiseFault).lineIn = s.lineIn := rfl
@[simp] theorem State.raiseFault_hostIn : (s.raiseFault).hostIn = s.hostIn := rfl
@[simp] theorem State.raiseFault_turn : (s.raiseFault).turn = s.turn := rfl

/-! Clearing the fault flag (R25). -/

@[simp] theorem State.clearFault_cfg : (s.clearFault).cfg = s.cfg := rfl
@[simp] theorem State.clearFault_paramIn : (s.clearFault).paramIn = s.paramIn := rfl
@[simp] theorem State.clearFault_st : (s.clearFault).st = s.st := rfl
@[simp] theorem State.clearFault_pend : (s.clearFault).pend = s.pend := rfl
@[simp] theorem State.clearFault_seqctr : (s.clearFault).seqctr = s.seqctr := rfl
@[simp] theorem State.clearFault_rxbuf : (s.clearFault).rxbuf = s.rxbuf := rfl
@[simp] theorem State.clearFault_fault : (s.clearFault).fault = false := rfl
@[simp] theorem State.clearFault_trace : (s.clearFault).trace = s.trace := rfl
@[simp] theorem State.clearFault_resp : (s.clearFault).resp = s.resp := rfl
@[simp] theorem State.clearFault_lineIn : (s.clearFault).lineIn = s.lineIn := rfl
@[simp] theorem State.clearFault_hostIn : (s.clearFault).hostIn = s.hostIn := rfl
@[simp] theorem State.clearFault_turn : (s.clearFault).turn = s.turn := rfl

/-! Writing `st` (R20). -/

@[simp] theorem State.setSt_cfg (v : EngineState) : (s.setSt v).cfg = s.cfg := rfl
@[simp] theorem State.setSt_paramIn (v : EngineState) : (s.setSt v).paramIn = s.paramIn := rfl
@[simp] theorem State.setSt_st (v : EngineState) : (s.setSt v).st = v := rfl
@[simp] theorem State.setSt_pend (v : EngineState) : (s.setSt v).pend = s.pend := rfl
@[simp] theorem State.setSt_seqctr (v : EngineState) : (s.setSt v).seqctr = s.seqctr := rfl
@[simp] theorem State.setSt_rxbuf (v : EngineState) : (s.setSt v).rxbuf = s.rxbuf := rfl
@[simp] theorem State.setSt_fault (v : EngineState) : (s.setSt v).fault = s.fault := rfl
@[simp] theorem State.setSt_trace (v : EngineState) : (s.setSt v).trace = s.trace := rfl
@[simp] theorem State.setSt_resp (v : EngineState) : (s.setSt v).resp = s.resp := rfl
@[simp] theorem State.setSt_lineIn (v : EngineState) : (s.setSt v).lineIn = s.lineIn := rfl
@[simp] theorem State.setSt_hostIn (v : EngineState) : (s.setSt v).hostIn = s.hostIn := rfl
@[simp] theorem State.setSt_turn (v : EngineState) : (s.setSt v).turn = s.turn := rfl

/-! Filling the slot (R21). -/

@[simp] theorem State.setPend_cfg (p : Pending) : (s.setPend p).cfg = s.cfg := rfl
@[simp] theorem State.setPend_paramIn (p : Pending) : (s.setPend p).paramIn = s.paramIn := rfl
@[simp] theorem State.setPend_st (p : Pending) : (s.setPend p).st = s.st := rfl
@[simp] theorem State.setPend_pend (p : Pending) : (s.setPend p).pend = some p := rfl
@[simp] theorem State.setPend_seqctr (p : Pending) : (s.setPend p).seqctr = s.seqctr := rfl
@[simp] theorem State.setPend_rxbuf (p : Pending) : (s.setPend p).rxbuf = s.rxbuf := rfl
@[simp] theorem State.setPend_fault (p : Pending) : (s.setPend p).fault = s.fault := rfl
@[simp] theorem State.setPend_trace (p : Pending) : (s.setPend p).trace = s.trace := rfl
@[simp] theorem State.setPend_resp (p : Pending) : (s.setPend p).resp = s.resp := rfl
@[simp] theorem State.setPend_lineIn (p : Pending) : (s.setPend p).lineIn = s.lineIn := rfl
@[simp] theorem State.setPend_hostIn (p : Pending) : (s.setPend p).hostIn = s.hostIn := rfl
@[simp] theorem State.setPend_turn (p : Pending) : (s.setPend p).turn = s.turn := rfl

/-! Ending a transaction (R109, R112). -/

@[simp] theorem State.closeSlot_cfg : (s.closeSlot).cfg = s.cfg := rfl
@[simp] theorem State.closeSlot_paramIn : (s.closeSlot).paramIn = s.paramIn := rfl
@[simp] theorem State.closeSlot_st : (s.closeSlot).st = .idle := rfl
@[simp] theorem State.closeSlot_pend : (s.closeSlot).pend = none := rfl
@[simp] theorem State.closeSlot_seqctr : (s.closeSlot).seqctr = s.seqctr := rfl
@[simp] theorem State.closeSlot_rxbuf : (s.closeSlot).rxbuf = s.rxbuf := rfl
@[simp] theorem State.closeSlot_fault : (s.closeSlot).fault = s.fault := rfl
@[simp] theorem State.closeSlot_trace : (s.closeSlot).trace = s.trace := rfl
@[simp] theorem State.closeSlot_resp : (s.closeSlot).resp = s.resp := rfl
@[simp] theorem State.closeSlot_lineIn : (s.closeSlot).lineIn = s.lineIn := rfl
@[simp] theorem State.closeSlot_hostIn : (s.closeSlot).hostIn = s.hostIn := rfl
@[simp] theorem State.closeSlot_turn : (s.closeSlot).turn = s.turn := rfl

/-! Writing the sequence counter (R23). -/

@[simp] theorem State.setSeqctr_cfg (v : Byte) : (s.setSeqctr v).cfg = s.cfg := rfl
@[simp] theorem State.setSeqctr_paramIn (v : Byte) : (s.setSeqctr v).paramIn = s.paramIn := rfl
@[simp] theorem State.setSeqctr_st (v : Byte) : (s.setSeqctr v).st = s.st := rfl
@[simp] theorem State.setSeqctr_pend (v : Byte) : (s.setSeqctr v).pend = s.pend := rfl
@[simp] theorem State.setSeqctr_seqctr (v : Byte) : (s.setSeqctr v).seqctr = v := rfl
@[simp] theorem State.setSeqctr_rxbuf (v : Byte) : (s.setSeqctr v).rxbuf = s.rxbuf := rfl
@[simp] theorem State.setSeqctr_fault (v : Byte) : (s.setSeqctr v).fault = s.fault := rfl
@[simp] theorem State.setSeqctr_trace (v : Byte) : (s.setSeqctr v).trace = s.trace := rfl
@[simp] theorem State.setSeqctr_resp (v : Byte) : (s.setSeqctr v).resp = s.resp := rfl
@[simp] theorem State.setSeqctr_lineIn (v : Byte) : (s.setSeqctr v).lineIn = s.lineIn := rfl
@[simp] theorem State.setSeqctr_hostIn (v : Byte) : (s.setSeqctr v).hostIn = s.hostIn := rfl
@[simp] theorem State.setSeqctr_turn (v : Byte) : (s.setSeqctr v).turn = s.turn := rfl

/-! Writing the receive buffer (R24). -/

@[simp] theorem State.setRxbuf_cfg (l : List Byte) : (s.setRxbuf l).cfg = s.cfg := rfl
@[simp] theorem State.setRxbuf_paramIn (l : List Byte) : (s.setRxbuf l).paramIn = s.paramIn := rfl
@[simp] theorem State.setRxbuf_st (l : List Byte) : (s.setRxbuf l).st = s.st := rfl
@[simp] theorem State.setRxbuf_pend (l : List Byte) : (s.setRxbuf l).pend = s.pend := rfl
@[simp] theorem State.setRxbuf_seqctr (l : List Byte) : (s.setRxbuf l).seqctr = s.seqctr := rfl
@[simp] theorem State.setRxbuf_rxbuf (l : List Byte) : (s.setRxbuf l).rxbuf = l := rfl
@[simp] theorem State.setRxbuf_fault (l : List Byte) : (s.setRxbuf l).fault = s.fault := rfl
@[simp] theorem State.setRxbuf_trace (l : List Byte) : (s.setRxbuf l).trace = s.trace := rfl
@[simp] theorem State.setRxbuf_resp (l : List Byte) : (s.setRxbuf l).resp = s.resp := rfl
@[simp] theorem State.setRxbuf_lineIn (l : List Byte) : (s.setRxbuf l).lineIn = s.lineIn := rfl
@[simp] theorem State.setRxbuf_hostIn (l : List Byte) : (s.setRxbuf l).hostIn = s.hostIn := rfl
@[simp] theorem State.setRxbuf_turn (l : List Byte) : (s.setRxbuf l).turn = s.turn := rfl

/-! RESET (R150). -/

@[simp] theorem State.resetBlock_cfg : (s.resetBlock).cfg = s.cfg := rfl
@[simp] theorem State.resetBlock_paramIn : (s.resetBlock).paramIn = s.paramIn := rfl
@[simp] theorem State.resetBlock_st : (s.resetBlock).st = .idle := rfl
@[simp] theorem State.resetBlock_pend : (s.resetBlock).pend = none := rfl
@[simp] theorem State.resetBlock_seqctr : (s.resetBlock).seqctr = 0 := rfl
@[simp] theorem State.resetBlock_rxbuf : (s.resetBlock).rxbuf = [] := rfl
@[simp] theorem State.resetBlock_fault : (s.resetBlock).fault = false := rfl
@[simp] theorem State.resetBlock_trace : (s.resetBlock).trace = s.trace := rfl
@[simp] theorem State.resetBlock_resp : (s.resetBlock).resp = s.resp := rfl
@[simp] theorem State.resetBlock_lineIn : (s.resetBlock).lineIn = s.lineIn := rfl
@[simp] theorem State.resetBlock_hostIn : (s.resetBlock).hostIn = s.hostIn := rfl
@[simp] theorem State.resetBlock_turn : (s.resetBlock).turn = s.turn := rfl

/-! Fixing the parameters after a RESET (R153): the parameters alone change. -/

/-- All that fixing the parameters can do. -/
theorem State.takeParams_cases :
    (s.paramIn = [] ∧ s.takeParams = s) ∨
    (∃ c cs, s.paramIn = c :: cs ∧ s.takeParams = { s with cfg := c, paramIn := cs }) := by
  unfold State.takeParams
  cases h : s.paramIn with
  | nil => exact .inl ⟨rfl, rfl⟩
  | cons c cs => exact .inr ⟨c, cs, rfl, rfl⟩

@[simp] theorem State.takeParams_st : s.takeParams.st = s.st := by
  obtain ⟨_, h⟩ | ⟨_, _, _, h⟩ := s.takeParams_cases <;> rw [h]
@[simp] theorem State.takeParams_pend : s.takeParams.pend = s.pend := by
  obtain ⟨_, h⟩ | ⟨_, _, _, h⟩ := s.takeParams_cases <;> rw [h]
@[simp] theorem State.takeParams_seqctr : s.takeParams.seqctr = s.seqctr := by
  obtain ⟨_, h⟩ | ⟨_, _, _, h⟩ := s.takeParams_cases <;> rw [h]
@[simp] theorem State.takeParams_rxbuf : s.takeParams.rxbuf = s.rxbuf := by
  obtain ⟨_, h⟩ | ⟨_, _, _, h⟩ := s.takeParams_cases <;> rw [h]
@[simp] theorem State.takeParams_fault : s.takeParams.fault = s.fault := by
  obtain ⟨_, h⟩ | ⟨_, _, _, h⟩ := s.takeParams_cases <;> rw [h]
@[simp] theorem State.takeParams_trace : s.takeParams.trace = s.trace := by
  obtain ⟨_, h⟩ | ⟨_, _, _, h⟩ := s.takeParams_cases <;> rw [h]
@[simp] theorem State.takeParams_resp : s.takeParams.resp = s.resp := by
  obtain ⟨_, h⟩ | ⟨_, _, _, h⟩ := s.takeParams_cases <;> rw [h]
@[simp] theorem State.takeParams_lineIn : s.takeParams.lineIn = s.lineIn := by
  obtain ⟨_, h⟩ | ⟨_, _, _, h⟩ := s.takeParams_cases <;> rw [h]
@[simp] theorem State.takeParams_hostIn : s.takeParams.hostIn = s.hostIn := by
  obtain ⟨_, h⟩ | ⟨_, _, _, h⟩ := s.takeParams_cases <;> rw [h]
@[simp] theorem State.takeParams_turn : s.takeParams.turn = s.turn := by
  obtain ⟨_, h⟩ | ⟨_, _, _, h⟩ := s.takeParams_cases <;> rw [h]

/-! Starting an operation. -/

@[simp] theorem State.clearResp_cfg : (s.clearResp).cfg = s.cfg := rfl
@[simp] theorem State.clearResp_paramIn : (s.clearResp).paramIn = s.paramIn := rfl
@[simp] theorem State.clearResp_st : (s.clearResp).st = s.st := rfl
@[simp] theorem State.clearResp_pend : (s.clearResp).pend = s.pend := rfl
@[simp] theorem State.clearResp_seqctr : (s.clearResp).seqctr = s.seqctr := rfl
@[simp] theorem State.clearResp_rxbuf : (s.clearResp).rxbuf = s.rxbuf := rfl
@[simp] theorem State.clearResp_fault : (s.clearResp).fault = s.fault := rfl
@[simp] theorem State.clearResp_trace : (s.clearResp).trace = s.trace := rfl
@[simp] theorem State.clearResp_resp : (s.clearResp).resp = none := rfl
@[simp] theorem State.clearResp_lineIn : (s.clearResp).lineIn = s.lineIn := rfl
@[simp] theorem State.clearResp_hostIn : (s.clearResp).hostIn = s.hostIn := rfl
@[simp] theorem State.clearResp_turn : (s.clearResp).turn = s.turn := rfl

/-! The composite operations. -/

@[simp] theorem State.emitTx_eq (f : List Byte) : s.emitTx f = s.emit (.tx f) := rfl
@[simp] theorem State.emitEv_eq (e : Event) : s.emitEv e = s.emit (.ev e) := rfl
@[simp] theorem State.raiseFaultLen_eq : s.raiseFaultLen = s.raiseFault.respond .faultLen := rfl
@[simp] theorem State.appendRx_eq (b : Byte) : s.appendRx b = s.setRxbuf (s.rxbuf ++ [b]) := rfl
@[simp] theorem State.sendAckFrame_eq : s.sendAckFrame = s.emit (.tx (ackFrame s.cfg)) := rfl

/-! The record of the slot. -/

@[simp] theorem Pending.markAcked_cmd (p : Pending) : p.markAcked.cmd = p.cmd := rfl
@[simp] theorem Pending.markAcked_seq (p : Pending) : p.markAcked.seq = p.seq := rfl
@[simp] theorem Pending.markAcked_payload (p : Pending) : p.markAcked.payload = p.payload := rfl
@[simp] theorem Pending.markAcked_retries (p : Pending) : p.markAcked.retries = p.retries := rfl
@[simp] theorem Pending.markAcked_acked (p : Pending) : p.markAcked.acked = true := rfl
@[simp] theorem Pending.countRetry_cmd (p : Pending) : p.countRetry.cmd = p.cmd := rfl
@[simp] theorem Pending.countRetry_seq (p : Pending) : p.countRetry.seq = p.seq := rfl
@[simp] theorem Pending.countRetry_payload (p : Pending) : p.countRetry.payload = p.payload := rfl
@[simp] theorem Pending.countRetry_retries (p : Pending) : p.countRetry.retries = p.retries + 1 := rfl
@[simp] theorem Pending.countRetry_acked (p : Pending) : p.countRetry.acked = p.acked := rfl

end Sys2Proof.Machine
end

