-- ==== Sys2Proof/Laws/Ops.lean ====
section
/-! SUPPORT. What each shared operation and each meaning can do, said once: one inversion lemma for each, which later
proofs cite instead of unfolding the operation. -/

namespace Sys2Proof.Machine

/-! ## Sequencing -/

@[simp] theorem andThen_next (s : State) (f : State → Host.Outcome State Fault Refusal) :
    andThen (.next s) f = f s := rfl

@[simp] theorem andThen_fault (r : Fault) (f : State → Host.Outcome State Fault Refusal) :
    andThen (.fault r) f = .fault r := rfl

@[simp] theorem andThen_refused (r : Refusal) (f : State → Host.Outcome State Fault Refusal) :
    andThen (.refused r) f = .refused r := rfl

theorem andThen_eq_next {o : Host.Outcome State Fault Refusal} {f : State → Host.Outcome State Fault Refusal}
    {t : State} : andThen o f = .next t ↔ ∃ s, o = .next s ∧ f s = .next t := by
  cases o <;> simp

theorem andThen_assoc (o : Host.Outcome State Fault Refusal) (f g : State → Host.Outcome State Fault Refusal) :
    andThen (andThen o f) g = andThen o fun s => andThen (f s) g := by
  cases o <;> rfl

/-! ## Sending a command frame (R81, R102) -/

theorem sendCmdFrame_cases (s : State) (cmd seq : Byte) (p : List Byte) :
    (p.length ≤ 254 ∧ s.sendCmdFrame cmd seq p =
      .next (s.emit (.tx (frameWith s.cfg cmd (seq :: p) (checkByte s.cfg cmd (seq :: p)))))) ∨
    (254 < p.length ∧ s.sendCmdFrame cmd seq p = .fault .buildOverlong) := by
  unfold State.sendCmdFrame cmdFrame build Config.maxPayload
  by_cases h : p.length ≤ 254
  · have hb : (seq :: p).length ≤ 255 := by simp; omega
    exact .inl ⟨h, by rw [if_pos hb]; rfl⟩
  · have hb : ¬ (seq :: p).length ≤ 255 := by simp; omega
    exact .inr ⟨by omega, by rw [if_neg hb]⟩

theorem pollResend_next {p : Pending} {s t : State} (h : pollResend p s = .next t) :
    p.payload.length ≤ 254 ∧
    t = ((s.emit (.tx (frameWith s.cfg p.cmd (p.seq :: p.payload) (checkByte s.cfg p.cmd (p.seq :: p.payload))))).setPend
      p.countRetry).emit (.ev (.sent p.seq p.countRetry.retries)) := by
  unfold pollResend at h
  obtain ⟨hl, he⟩ | ⟨hl, he⟩ := sendCmdFrame_cases s p.cmd p.seq p.payload
  · rw [he, andThen_next] at h
    exact ⟨hl, by cases h; rfl⟩
  · rw [he] at h
    cases h

/-! ## The frame classes: every next state of each (R105 to R114) -/

theorem execPoll_next {p : List Byte} {s t : State} (h : execPoll p s = .next t) :
    (s.st = .idle ∧ t = pollIdle s) ∨
    (∃ q, s.st = .waitAck ∧ s.pend = some q ∧ q.retries.toNat < 5 ∧ pollResend q s = .next t) ∨
    (∃ q, s.st = .waitAck ∧ s.pend = some q ∧ 5 ≤ q.retries.toNat ∧ t = pollTimeout q s) ∨
    (∃ q, s.st = .waitData ∧ s.pend = some q ∧ t = pollFinish q s) := by
  unfold execPoll at h
  split at h
  · cases h
    exact .inl ⟨‹_›, rfl⟩
  · split at h
    · cases h
    · split at h
      · exact .inr (.inl ⟨_, ‹_›, ‹_›, ‹_›, h⟩)
      · cases h
        exact .inr (.inr (.inl ⟨_, ‹_›, ‹_›, Nat.le_of_not_lt ‹_›, rfl⟩))
  · split at h
    · cases h
    · cases h
      exact .inr (.inr (.inr ⟨_, ‹_›, ‹_›, rfl⟩))

theorem execAck_next {p : List Byte} {s t : State} (h : execAck p s = .next t) :
    (s.st ≠ .waitAck ∧ t = reportAnomaly s.cfg.ackId s) ∨
    (∃ q, s.st = .waitAck ∧ s.pend = some q ∧ t = ackAccept q s) := by
  unfold execAck at h
  split at h
  · cases h
    exact .inl ⟨by simp [*], rfl⟩
  · split at h
    · cases h
    · cases h
      exact .inr ⟨_, ‹_›, ‹_›, rfl⟩
  · cases h
    exact .inl ⟨by simp [*], rfl⟩

theorem execData_cases (cmd : Byte) (p : List Byte) (s : State) :
    (s.st ≠ .waitData ∧ execData cmd p s = .next (reportAnomaly cmd s)) ∨
    (s.st = .waitData ∧ execData cmd p s = .next (dataDeliver cmd p s)) := by
  unfold execData
  split
  · exact .inl ⟨by simp [*], rfl⟩
  · exact .inl ⟨by simp [*], rfl⟩
  · exact .inr ⟨‹_›, rfl⟩

theorem onFrame_cases (cmd : Byte) (p : List Byte) (s : State) :
    (cmd = s.cfg.pollId ∧ onFrame cmd p s = execPoll p s) ∨
    (cmd ≠ s.cfg.pollId ∧ cmd = s.cfg.ackId ∧ onFrame cmd p s = execAck p s) ∨
    (cmd ≠ s.cfg.pollId ∧ cmd ≠ s.cfg.ackId ∧ onFrame cmd p s = execData cmd p s) := by
  unfold onFrame
  obtain ⟨h, hc⟩ | ⟨h1, h2, hc⟩ | ⟨h1, h2, hc⟩ := classify_cases s.cfg cmd
  · exact .inl ⟨h, by rw [hc]⟩
  · exact .inr (.inl ⟨h1, h2, by rw [hc]⟩)
  · exact .inr (.inr ⟨h1, h2, by rw [hc]⟩)

/-! ## ENQUEUE (R103) -/

theorem execEnqueue_cases (cmd : Byte) (p : List Byte) (s : State) :
    (254 < p.length ∧ execEnqueue cmd p s = .next (s.raiseFault.respond .faultLen)) ∨
    (p.length ≤ 254 ∧ s.st = .idle ∧ execEnqueue cmd p s = .next (claimSlot cmd p s)) ∨
    (p.length ≤ 254 ∧ s.st ≠ .idle ∧ execEnqueue cmd p s = .next (s.respond .busy)) := by
  unfold execEnqueue Config.maxEnqPayload
  by_cases h : 254 < p.length
  · exact .inl ⟨h, by rw [if_pos h]; rfl⟩
  · by_cases hi : s.st = .idle
    · exact .inr (.inl ⟨by omega, hi, by rw [if_neg h, if_pos hi]⟩)
    · exact .inr (.inr ⟨by omega, hi, by rw [if_neg h, if_neg hi]⟩)

/-! ## The parse step (R84) -/

theorem parseOnce_cases (s : State) :
    (∃ kept, scan s.cfg s.rxbuf = .needMore kept ∧ parseOnce s = .needMore (s.setRxbuf kept)) ∨
    (∃ h, scan s.cfg s.rxbuf = .bad h ∧
      parseOnce s = .progress (execBadFrame (frameCmd h) (framePayload h) (frameChk h) (s.setRxbuf h))) ∨
    (∃ h, scan s.cfg s.rxbuf = .good h ∧
      parseOnce s = .progress (onFrame (frameCmd h) (framePayload h) (s.setRxbuf (h.drop (5 + frameLen h))))) := by
  unfold parseOnce
  cases hs : scan s.cfg s.rxbuf with
  | needMore kept => exact .inl ⟨kept, rfl, rfl⟩
  | bad h => exact .inr (.inl ⟨h, rfl, rfl⟩)
  | good h => exact .inr (.inr ⟨h, rfl, rfl⟩)

/-- The parse step performs the instruction the receiver's decoder reads from the buffer. -/
theorem goodFrameInstr_exec (cmd : Byte) (p : List Byte) (s : State) :
    exec (goodFrameInstr s.cfg cmd p) s = onFrame cmd p s := by
  unfold goodFrameInstr onFrame
  cases classify s.cfg cmd <;> rfl

/-! ## Taking an offer (R52, R53) -/

theorem takeOffer_cases (s : State) :
    (s.lineIn = [] ∧ s.hostIn = [] ∧ s.takeOffer = none) ∨
    (∃ x xs, s.lineIn = x :: xs ∧ ∃ n, s.takeOffer = some (x, { s with lineIn := xs, turn := n })) ∨
    (∃ y ys, s.hostIn = y :: ys ∧ ∃ n, s.takeOffer = some (y, { s with hostIn := ys, turn := n })) := by
  unfold State.takeOffer
  split
  · exact .inl ⟨‹_›, ‹_›, rfl⟩
  · exact .inr (.inl ⟨_, _, ‹_›, s.turn, rfl⟩)
  · exact .inr (.inr ⟨_, _, ‹_›, s.turn, rfl⟩)
  · split
    · exact .inr (.inl ⟨_, _, ‹_›, s.turn + 1, rfl⟩)
    · exact .inr (.inr ⟨_, _, ‹_›, s.turn + 1, rfl⟩)

/-- The offer taken, and the state its operation is performed in, are those of `State.Takes`. -/
theorem takes_iff {s u : State} {op : PortOp} :
    s.Takes op u ↔ ∃ t, s.takeOffer = some (op, t) ∧ u = t.clearResp := by
  cases hl : s.lineIn <;> cases hh : s.hostIn <;> cases hf : Config.lineFirst s.turn <;>
    simp [State.Takes, State.takeOffer, State.clearResp, hl, hh, hf, and_assoc]

/-- What taking an offer leaves as it was. -/
theorem State.Takes.frame {s u : State} {op : PortOp} (h : s.Takes op u) :
    u.cfg = s.cfg ∧ u.paramIn = s.paramIn ∧ u.st = s.st ∧ u.pend = s.pend ∧ u.seqctr = s.seqctr ∧
    u.rxbuf = s.rxbuf ∧ u.fault = s.fault ∧ u.trace = s.trace ∧ u.resp = none := by
  rcases h with ⟨_, _, _, rfl⟩ | ⟨_, _, _, rfl⟩ | ⟨_, _, _, _, rfl⟩ | ⟨_, _, _, _, rfl⟩ <;> simp

/-! ## Decoding a request (R72) -/

theorem decodeOp_cases (op : PortOp) :
    (∃ i, decodeOp op = .ok i ∧ ¬ Mismatched op) ∨ (decodeOp op = .error .payloadPortMismatch ∧ Mismatched op) := by
  have two : op.word.extractLsb' 0 2 = 2 ↔ (op.word.extractLsb' 0 2).toNat = 2 :=
    ⟨fun h => by rw [h]; rfl, fun h => BitVec.eq_of_toNat_eq (by rw [h]; rfl)⟩
  unfold decodeOp Mismatched opL Config.maxPayload
  rw [two]
  split
  · exact .inl ⟨_, rfl, by omega⟩
  · exact .inl ⟨_, rfl, by omega⟩
  · split
    · exact .inl ⟨_, rfl, by omega⟩
    · exact .inr ⟨rfl, ‹_›, by omega, by omega⟩
  · exact .inl ⟨_, rfl, fun h => absurd h.1 ‹_›⟩

theorem decodeOp_eq_reset {op : PortOp} (h : op.word.extractLsb' 0 2 = 3) : decodeOp op = .ok .reset := by
  unfold decodeOp
  rw [h]
  rfl

/-! ## The step (R7, R153) -/

@[simp] theorem settle_reset (o : Host.Outcome State Fault Refusal) :
    settle .reset o = andThen o fun t => .next t.takeParams := rfl

theorem settle_of_ne_reset {i : Instr} (h : i ≠ .reset) (o : Host.Outcome State Fault Refusal) : settle i o = o :=
  if_neg h

/-- Every next state of a settled operation. -/
theorem settle_next {i : Instr} {o : Host.Outcome State Fault Refusal} {t : State} (h : settle i o = .next t) :
    (i ≠ .reset ∧ o = .next t) ∨ (i = .reset ∧ ∃ u, o = .next u ∧ t = u.takeParams) := by
  by_cases hi : i = .reset
  · subst hi
    obtain ⟨u, hu, ht⟩ := andThen_eq_next.mp h
    exact .inr ⟨rfl, u, hu, by cases ht; rfl⟩
  · exact .inl ⟨hi, settle_of_ne_reset hi o ▸ h⟩

/-- All that a step can do. -/
theorem step_cases (s : State) :
    (s.cfg.pollId = s.cfg.ackId ∧ step s = .refused .equalReservedIds) ∨
    (s.cfg.pollId ≠ s.cfg.ackId ∧ s.lineIn = [] ∧ s.hostIn = [] ∧ step s = .next s) ∨
    (s.cfg.pollId ≠ s.cfg.ackId ∧ ∃ op u i, s.Takes op u ∧ decodeOp op = .ok i ∧ step s = settle i (exec i u)) ∨
    (s.cfg.pollId ≠ s.cfg.ackId ∧ ∃ op u, s.Takes op u ∧ Mismatched op ∧ step s = .refused .payloadPortMismatch) := by
  unfold step fetch Config.legal
  by_cases hc : s.cfg.pollId = s.cfg.ackId
  · exact .inl ⟨hc, by simp [hc]⟩
  · have hb : (s.cfg.pollId != s.cfg.ackId) = true := by simpa using hc
    rw [if_pos hb]
    cases ht : s.takeOffer with
    | none =>
      obtain ⟨hl, hh, _⟩ | ⟨_, _, _, _, h⟩ | ⟨_, _, _, _, h⟩ := takeOffer_cases s
      · exact .inr (.inl ⟨hc, hl, hh, rfl⟩)
      · simp [ht] at h
      · simp [ht] at h
    | some r =>
      obtain ⟨op, t⟩ := r
      have hk : s.Takes op t.clearResp := takes_iff.mpr ⟨t, ht, rfl⟩
      obtain ⟨i, hd, _⟩ | ⟨hd, hm⟩ := decodeOp_cases op
      · exact .inr (.inr (.inl ⟨hc, op, t.clearResp, i, hk, hd, by simp [hd]⟩))
      · exact .inr (.inr (.inr ⟨hc, op, t.clearResp, hk, hm, by simp [hd]⟩))

end Sys2Proof.Machine
end

