-- ==== Sys2Proof/Laws/PerInstr.lean ====
section
/-! SUPPORT. A statement for every instruction as syntax: the form of its encoding (30_encoding.md R60, R70, R72). -/

namespace Sys2Proof.Laws

/-- The `op` field of a request (R72). -/
def opField (r : PortOp) : Nat := (r.word.extractLsb' 0 2).toNat

/-- A frame opens with the sync pair, the command id and the length byte, and has `5 + N` bytes (R60, R61). -/
def HasHeader (c : Config) (cmd : Byte) (n : Nat) (f : List Byte) : Prop :=
  f.take 4 = [c.sync1, c.sync2, cmd, BitVec.ofNat 8 n] ∧ f.length = 5 + n

theorem frameWith_hasHeader (c : Config) (cmd : Byte) (p : List Byte) (k : Byte) :
    HasHeader c cmd p.length (frameWith c cmd p k) :=
  ⟨rfl, by simp [Nat.add_comm]⟩

/-- The `op` field of an operation word is what was put there. -/
theorem opField_opWord (op : BitVec 2) (a l : Byte) (p : List Byte) :
    opField { word := opWord op a l, payload := p } = op.toNat := by
  have h : BitVec.extractLsb' 0 2 (opWord op a l) = op := by
    apply BitVec.eq_of_getElem_eq
    intro i hi
    have h2 : i < 2 := by omega
    rw [BitVec.getElem_extractLsb', opWord]
    erw [BitVec.getLsbD_append]
    simp [h2, BitVec.getLsbD_eq_getElem]
  rw [opField, h]

end Sys2Proof.Laws

namespace Sys2Proof.Laws.EncodedForm

/-- The form of an instruction's encoding under every configuration: a port operation is a request with the `op` of
R72; a frame is `5 + N` bytes behind the header of R60 with the instruction's command id, in its own direction (R70). -/
def Statement : Instr → Prop
  | .status => ∀ c, ∃ r, encode c .status = .port r ∧ opField r = 0
  | .rxByte b => ∀ c, ∃ r, encode c (.rxByte b) = .port r ∧ opField r = 1
  | .enqueue cmd p => ∀ c, ∃ r, encode c (.enqueue cmd p) = .port r ∧ opField r = 2 ∧ r.payload = p
  | .reset => ∀ c, ∃ r, encode c .reset = .port r ∧ opField r = 3
  | .poll p => ∀ c, ∃ f, encode c (.poll p) = .inbound f ∧ HasHeader c c.pollId p.length f
  | .ack p => ∀ c, ∃ f, encode c (.ack p) = .inbound f ∧ HasHeader c c.ackId p.length f
  | .data cmd p => ∀ c, ∃ f, encode c (.data cmd p) = .inbound f ∧ HasHeader c cmd p.length f
  | .badFrame cmd p k => ∀ c, ∃ f, encode c (.badFrame cmd p k) = .inbound f ∧ HasHeader c cmd p.length f
  | .ackf => ∀ c, ∃ f, encode c .ackf = .outbound f ∧ HasHeader c c.ackId 0 f
  | .cmdf cmd q p => ∀ c, ∃ f, encode c (.cmdf cmd q p) = .outbound f ∧ HasHeader c cmd (1 + p.length) f

theorem status : Statement .status := fun _ => ⟨_, rfl, opField_opWord ..⟩

theorem rxByte (b : Byte) : Statement (.rxByte b) := fun _ => ⟨_, rfl, opField_opWord ..⟩

theorem enqueue (cmd : Byte) (payload : List Byte) : Statement (.enqueue cmd payload) :=
  fun _ => ⟨_, rfl, opField_opWord .., rfl⟩

theorem reset : Statement .reset := fun _ => ⟨_, rfl, opField_opWord ..⟩

theorem poll (payload : List Byte) : Statement (.poll payload) := fun _ => ⟨_, rfl, frameWith_hasHeader ..⟩

theorem ack (payload : List Byte) : Statement (.ack payload) := fun _ => ⟨_, rfl, frameWith_hasHeader ..⟩

theorem data (cmd : Byte) (payload : List Byte) : Statement (.data cmd payload) :=
  fun _ => ⟨_, rfl, frameWith_hasHeader ..⟩

theorem badFrame (cmd : Byte) (payload : List Byte) (chk : Byte) : Statement (.badFrame cmd payload chk) :=
  fun _ => ⟨_, rfl, frameWith_hasHeader ..⟩

theorem ackf : Statement .ackf := fun _ => ⟨_, rfl, frameWith_hasHeader ..⟩

theorem cmdf (cmd seq : Byte) (payload : List Byte) : Statement (.cmdf cmd seq payload) := fun c =>
  ⟨_, rfl, by simpa [Nat.add_comm] using frameWith_hasHeader c cmd (seq :: payload) _⟩

end Sys2Proof.Laws.EncodedForm
end

