-- ==== Sys2Proof/Tests/Slice0.lean ====
section
/-! SUPPORT. Small tests of the encodings under TC0, their expected results from the spec's tables and worked examples, and
the states the other test files use. -/

namespace Sys2Proof.Tests

open Sys2Proof.Machine

/-! ## Small states and what a test looks at -/

/-- The parameters of every test. -/
abbrev tc0 : Config := Config.tc0

/-- The record of `ENQ 03 [00 0C]` with so many retries counted. -/
def buy (retries : BitVec 3) (acked : Bool) : Pending :=
  { cmd := 0x03, seq := 0x01, payload := [0x00, 0x0C], retries := retries, acked := acked }

/-- WAIT_ACK with that record. -/
def waiting (retries : BitVec 3) : State :=
  { State.reset with st := .waitAck, pend := some (buy retries false), seqctr := 1 }

/-- WAIT_DATA with that record, sent once. -/
def acked : State := { State.reset with st := .waitData, pend := some (buy 1 true), seqctr := 1 }

/-- The trace of a next state. -/
def traceOf : Host.Outcome State Fault Refusal → Option (List Output)
  | .next t => some t.trace
  | .fault _ => none
  | .refused _ => none

/-- The receive buffer of a next state. -/
def rxbufOf : Host.Outcome State Fault Refusal → Option (List Byte)
  | .next t => some t.rxbuf
  | .fault _ => none
  | .refused _ => none

/-- What a next state's response port holds. -/
def respOf : Host.Outcome State Fault Refusal → Option PortResponse
  | .next t => t.resp
  | .fault _ => none
  | .refused _ => none

/-- The engine state of a next state. -/
def stOf : Host.Outcome State Fault Refusal → Option EngineState
  | .next t => some t.st
  | .fault _ => none
  | .refused _ => none

/-- The fault flag of a next state. -/
def faultOf : Host.Outcome State Fault Refusal → Option Bool
  | .next t => some t.fault
  | .fault _ => none
  | .refused _ => none

/-- How many bytes `n` zeros are. -/
theorem zeros_le (n k : Nat) (h : n ≤ k) : (List.replicate n (0 : Byte)).length ≤ k := by
  rwa [List.length_replicate]

theorem lt_zeros (k n : Nat) (h : k < n) : k < (List.replicate n (0 : Byte)).length := by
  rwa [List.length_replicate]

/-! ## WellFormed refuses each ill-formed term -/

theorem test_wf_enqueue_too_long : wellFormed tc0 (.enqueue 3 (List.replicate 256 0)) = false := by
  rw [wellFormed, List.length_replicate]; rfl
theorem test_wf_poll_too_long : wellFormed tc0 (.poll (List.replicate 256 0)) = false := by
  rw [wellFormed, List.length_replicate]; rfl
theorem test_wf_ack_too_long : wellFormed tc0 (.ack (List.replicate 256 0)) = false := by
  rw [wellFormed, List.length_replicate]; rfl
theorem test_wf_data_too_long : wellFormed tc0 (.data 3 (List.replicate 256 0)) = false := by
  rw [wellFormed, List.length_replicate]; rfl
theorem test_wf_data_poll_id : wellFormed tc0 (.data 0x41 []) = false := by decide
theorem test_wf_data_ack_id : wellFormed tc0 (.data 0x42 []) = false := by decide
theorem test_wf_bad_too_long : wellFormed tc0 (.badFrame 3 (List.replicate 256 0) 0) = false := by
  rw [wellFormed, List.length_replicate]; rfl
theorem test_wf_bad_with_good_check : wellFormed tc0 (.badFrame 0x41 [] 0x40) = false := by decide
theorem test_wf_cmdf_too_long : wellFormed tc0 (.cmdf 3 1 (List.replicate 255 0)) = false := by
  rw [wellFormed, List.length_replicate]; rfl
theorem test_wf_cmdf_seq_zero : wellFormed tc0 (.cmdf 3 0 []) = false := by decide
theorem test_wf_accepts : wellFormed tc0 (.data 0x99 [0x07, 0xAA, 0xBB]) = true := by decide

/-! ## Decoding, from words written out (95_test_vectors.md section 4, 30_encoding.md R77) -/

theorem test_decode_status : decodeOp { word := 0x00000, payload := [] } = .ok .status := by rfl
theorem test_decode_reset : decodeOp { word := 0x00003, payload := [] } = .ok .reset := by rfl
theorem test_decode_rx_byte : decodeOp { word := 0x003E9, payload := [] } = .ok (.rxByte 0xFA) := by rfl
theorem test_decode_enqueue :
    decodeOp { word := 0x0080E, payload := [0x00, 0x0C] } = .ok (.enqueue 0x03 [0x00, 0x0C]) := by rfl
/-- R72: the ignored fields of STATUS have no effect. -/
theorem test_decode_ignored_bits : decodeOp { word := 0x3FFFC, payload := [] } = .ok .status := by rfl
/-- R72: l = 255 (P5, word 0x3FC1E). -/
theorem test_decode_enqueue_255 (p : List Byte) (h : p.length = 255) :
    decodeOp { word := 0x3FC1E, payload := p } = .ok (.enqueue 0x07 p) := by
  simp [decodeOp, opA, opL, h]
/-- R72: the payload port must carry exactly `l` bytes. -/
theorem test_decode_enqueue_mismatch :
    decodeOp { word := 0x0080E, payload := [0x00] } = .error .payloadPortMismatch := by rfl
/-- R72: a list of more than 255 bytes is an ENQUEUE whatever `l` says. -/
theorem test_decode_enqueue_overlong (p : List Byte) (h : 255 < p.length) :
    decodeOp { word := 0x0080E, payload := p } = .ok (.enqueue 0x03 p) := by
  simp [decodeOp, opA, opL, Config.maxPayload, h]
theorem test_decode_poll : decodeFrame tc0 [0xFA, 0xFB, 0x41, 0x00, 0x40] = .ok (.poll [], []) := by rfl
/-- FS-8: an ack with N = 1 is still an ack. -/
theorem test_decode_ack : decodeFrame tc0 [0xFA, 0xFB, 0x42, 0x01, 0x01, 0x43] = .ok (.ack [0x01], []) := by rfl
theorem test_decode_data : decodeFrame tc0 [0xFA, 0xFB, 0x99, 0x03, 0x07, 0xAA, 0xBB, 0x8D] =
    .ok (.data 0x99 [0x07, 0xAA, 0xBB], []) := by rfl
/-- PA-8: the check byte is one off; all but the first byte stays. -/
theorem test_decode_bad_frame : decodeFrame tc0 [0xFA, 0xFB, 0x41, 0x00, 0x41] =
    .ok (.badFrame 0x41 [] 0x41, [0xFB, 0x41, 0x00, 0x41]) := by rfl
/-- PA-7: the check byte has not arrived. -/
theorem test_decode_incomplete : decodeFrame tc0 [0xFA, 0xFB, 0x41, 0x00] = .error .incompleteFrame := by rfl
theorem test_decode_ackf : decodeTx tc0 [0xFA, 0xFB, 0x42, 0x00, 0x43] = .ok .ackf := by rfl
theorem test_decode_cmdf : decodeTx tc0 [0xFA, 0xFB, 0x03, 0x03, 0x01, 0x00, 0x0C, 0x0C] =
    .ok (.cmdf 0x03 0x01 [0x00, 0x0C]) := by rfl
theorem test_decode_tx_bad_check : decodeTx tc0 [0xFA, 0xFB, 0x42, 0x00, 0x44] = .error .notAnOutboundFrame := by rfl
theorem test_decode_tx_no_sequence : decodeTx tc0 [0xFA, 0xFB, 0x10, 0x00, 0x11] = .error .noSequenceByte := by rfl

/-- The words of the opcode table's rows, their free bits 0. -/
theorem test_table_ops : (decodeTableWord 24 0, decodeTableWord 24 1, decodeTableWord 24 2, decodeTableWord 24 3) =
    (some .status, some (.rxByte 0), some (.enqueue 0 []), some .reset) := by rfl
theorem test_table_frames :
    (decodeTableWord 32 0xFAFB4100, decodeTableWord 32 0xFAFB4200, decodeTableWord 32 0xFAFB0000) =
    (some (.poll []), some (.ack []), some (.data 0 [])) := by rfl
theorem test_table_outbound : decodeTableWord 40 0xFAFB4200 = some .ackf := by rfl
/-- The step performs a poll placed by its table word as the first operation after reset: FS-1. -/
theorem test_table_step : traceOf (step (State.reset.withFetchWord 32 0xFAFB4100)) =
    some [.tx [0xFA, 0xFB, 0x42, 0x00, 0x43]] := by decide
/-- U14: a response code and a state code that are never produced are refused. -/
theorem test_codes_refused : (responseOfWord? 0x003, stOfCode? 3) = (none, none) := by decide

end Sys2Proof.Tests
end

