-- ==== Sys2Proof/Tests/Steps.lean ====
section
/-! SUPPORT. One step of each instruction under TC0, the expected results from the vectors of 95_test_vectors.md. -/

namespace Sys2Proof.Tests

open Sys2Proof.Machine

/-- EQ-7, RS: right after an overlong ENQUEUE, STATUS0 = 0x00000080. -/
theorem test_status_fault : respOf (exec .status { State.reset with fault := true }) =
    some (.status 0x00000080 0x00000000) := by decide
/-- L1-10: STATUS0 = 0x0301011E, STATUS1 = 0x00000400. -/
theorem test_status_wait_data : respOf (exec .status acked) = some (.status 0x0301011E 0x00000400) := by decide

/-- P3: the outer frame fails at its last byte and the poll inside it is dispatched in the same step. -/
theorem test_rx_byte_resync : traceOf (exec (.rxByte 0x99)
      { State.reset with rxbuf := [0xFA, 0xFB, 0x11, 0x05, 0xFA, 0xFB, 0x41, 0x00, 0x40] }) =
    some [.ev (.diagChecksum 0x11 0x05), .tx [0xFA, 0xFB, 0x42, 0x00, 0x43]] := by decide
/-- PA-5: `FA FA` holds no pair and only the final `FA` is kept. -/
theorem test_rx_byte_keeps_sync1 : rxbufOf (exec (.rxByte 0xFA) { State.reset with rxbuf := [0xFA] }) = some [0xFA] := by
  decide

/-- P4: 255 is issued after 254. -/
theorem test_enqueue_seq_255 : traceOf (exec (.enqueue 0x03 [0x00, 0x01]) { State.reset with seqctr := 254 }) =
    some [.resp (.accept 255), .ev (.queued 255 0x03)] := by decide
/-- EQ-8: the length is tested before the engine state. -/
theorem test_enqueue_fault_before_busy (p : List Byte) (h : 254 < p.length) :
    (faultOf (exec (.enqueue 0x03 p) (waiting 0)), respOf (exec (.enqueue 0x03 p) (waiting 0))) =
    (some true, some (.enqueue .faultLen)) := by
  have h' : Config.maxEnqPayload < p.length := h
  rw [exec, execEnqueue, if_pos h']
  rfl

/-- R150: RESET in WAIT_DATA with a partial frame: the reset state. -/
theorem test_reset : exec .reset { acked with rxbuf := [0xFA, 0xFB, 0x41], fault := true } = .next State.reset := by rfl

/-- R153: the parameters the environment has ready are in force from the RESET on. -/
theorem test_reset_then_parameters :
    step { acked with hostIn := [{ word := 0x00003, payload := [] }], paramIn := [{ tc0 with pollId := 0x01 }] } =
      .next (State.resetWith { tc0 with pollId := 0x01 }) := by rfl

/-- FS-4. -/
theorem test_poll_resends : traceOf (exec (.poll []) (waiting 0)) =
    some [.tx [0xFA, 0xFB, 0x03, 0x03, 0x01, 0x00, 0x0C, 0x0C], .ev (.sent 1 1)] := by decide
/-- FS-5: no sixth send. -/
theorem test_poll_times_out : traceOf (exec (.poll []) (waiting 5)) =
    some [.tx [0xFA, 0xFB, 0x42, 0x00, 0x43], .ev (.timeout 1)] := by decide
/-- FS-14: an ack after the fifth send still saves the transaction. -/
theorem test_ack_after_fifth_send : (stOf (exec (.ack []) (waiting 5)), traceOf (exec (.ack []) (waiting 5))) =
    (some .waitData, some [.ev (.acknowledged 1)]) := by decide
/-- V-C7: an ack in WAIT_DATA. -/
theorem test_ack_in_wait_data : traceOf (exec (.ack []) acked) = some [.ev (.diagAnomaly .waitData 0x42)] := by decide
/-- P1: the event before the data-ack. -/
theorem test_data_delivered : traceOf (exec (.data 0x11 [0x01, 0x00, 0x0C, 0x00]) acked) =
    some [.ev (.data 0x11 [0x01, 0x00, 0x0C, 0x00]), .tx [0xFA, 0xFB, 0x42, 0x00, 0x43]] := by decide
/-- FS-6: not acked in WAIT_ACK. -/
theorem test_data_in_wait_ack : traceOf (exec (.data 0x99 [0x07, 0xAA, 0xBB]) (waiting 0)) =
    some [.ev (.diagAnomaly .waitAck 0x99)] := by decide
/-- R88 on PA-8's frame. -/
theorem test_bad_frame : (traceOf (exec (.badFrame 0x41 [] 0x41)
      { State.reset with rxbuf := [0xFA, 0xFB, 0x41, 0x00, 0x41] }),
    rxbufOf (exec (.badFrame 0x41 [] 0x41) { State.reset with rxbuf := [0xFA, 0xFB, 0x41, 0x00, 0x41] })) =
    (some [.ev (.diagChecksum 0x41 0x00)], some [0xFB, 0x41, 0x00, 0x41]) := by decide
/-- CK-2. -/
theorem test_ackf : traceOf (exec .ackf State.reset) = some [.tx [0xFA, 0xFB, 0x42, 0x00, 0x43]] := by decide
/-- CK-7. -/
theorem test_cmdf : traceOf (exec (.cmdf 0x03 0xFF [0x00, 0x0C]) State.reset) =
    some [.tx [0xFA, 0xFB, 0x03, 0x03, 0xFF, 0x00, 0x0C, 0xF2]] := by decide
/-- R138: record bytes of V-C7 and FS-6. -/
theorem test_event_records : (eventRecord (.diagAnomaly .waitData 0x42), eventRecord (.data 0x20 []),
    eventRecord (.sent 1 5)) = ([0x08, 0x02, 0x42], [0x04, 0x20, 0x00], [0x02, 0x01, 0x05]) := by decide

end Sys2Proof.Tests
end

