-- ==== Sys2Proof/Tests/Witnesses.lean ====
section
/-! SUPPORT. For each statement with hypotheses, a witness that meets them, clause by clause, at boundary values. -/

namespace Sys2Proof.Tests

open Sys2Proof.Machine

/-- A request for RX_BYTE 00, and one for STATUS. -/
def rx00 : PortOp := { word := 0x00001, payload := [] }
def askStatus : PortOp := { word := 0x00000, payload := [] }
/-- A request for RESET, and one for ENQUEUE with l = 2 and one payload byte. -/
def askReset : PortOp := { word := 0x00003, payload := [] }
def shortEnqueue : PortOp := { word := 0x0080E, payload := [0x00] }
/-- Parameters other than TC0's, both sync bytes equal. -/
def otherParams : Config := { sync1 := 0xAA, sync2 := 0xAA, pollId := 0x01, ackId := 0x02 }

theorem witness_BuildFollowsTheLayout :
    (List.replicate 255 (0 : Byte)).length ≤ 255 ∧ 255 < (List.replicate 256 (0 : Byte)).length := ⟨zeros_le 255 255 (by decide), lt_zeros 255 256 (by decide)⟩
theorem witness_FrameOperandsAreRead : (List.replicate 255 (0 : Byte)).length ≤ 255 := zeros_le 255 255 (by decide)
theorem witness_SyncDetectorFindsFirstPair :
    firstPair tc0 [0x00, 0xFA, 0xFB, 0xFA, 0xFB] = some 1 ∧ firstPair tc0 [0xFB, 0xFA] = none := by decide
/-- R86, PA-3 and PA-5: `00 13`, `FA 00` and `FA FA` hold no pair, nor does `FA` after a held `FA`. -/
theorem witness_NoiseLeavesNoTrace : State.reset.rxbuf = [] ∧ firstPair tc0 ([] ++ [0x00, 0x13]) = none ∧
    firstPair tc0 ([] ++ [0xFA, 0x00]) = none ∧ keptTail tc0 [0xFA, 0x00] = [] ∧
    ({ State.reset with rxbuf := [0xFA] } : State).rxbuf = [tc0.sync1] ∧ firstPair tc0 ([0xFA] ++ [0xFA]) = none ∧
    keptTail tc0 [0xFA, 0xFA] = [0xFA] := by decide
theorem witness_ReceiverWaitsForWholeFrame :
    ([0xFA, 0xFB, 0x41] : List Byte).length < 4 ∧
    ([0xFA, 0xFB, 0x41, 0x00] : List Byte).length < 5 + frameLen [0xFA, 0xFB, 0x41, 0x00] ∧
    5 + frameLen [0xFA, 0xFB, 0x41, 0x00, 0x40] ≤ ([0xFA, 0xFB, 0x41, 0x00, 0x40] : List Byte).length ∧
    ({ State.reset with rxbuf := [0xFA, 0xFB, 0x41] } : State).rxbuf =
      State.reset.cfg.sync1 :: State.reset.cfg.sync2 :: [0x41] := by decide
theorem witness_HeldBytesChangeNothingElse : State.reset.rxbuf = [] ∧
    ([0x00, 0x00] : List Byte).length < 1 + (0x02 : Byte).toNat := by decide
theorem witness_GoodFrameIsRemovedAndDispatched : ([] : List Byte).length ≤ 255 ∧
    ({ State.reset with rxbuf := [0xFA, 0xFB, 0x41, 0x00, 0x40, 0xFA] } : State).rxbuf =
      wireFrame tc0 0x41 [] ++ [0xFA] := by decide
theorem witness_BadFrameDropsOneByte : ([] : List Byte).length ≤ 255 ∧ (0x41 : Byte) ≠ checkByte tc0 0x41 [] ∧
    ({ State.reset with rxbuf := [0xFA, 0xFB, 0x41, 0x00, 0x41] } : State).rxbuf =
      frameWith tc0 0x41 [] 0x41 ++ [] := by decide
/-- P3: a poll inside a frame whose check byte 99 is wrong. -/
theorem witness_FrameInsideBadFrameIsFound : ([] : List Byte).length ≤ 250 ∧
    ({ State.reset with rxbuf := [0xFA, 0xFB, 0x11, 0x05, 0xFA, 0xFB, 0x41, 0x00, 0x40] } : State).rxbuf =
      frameHead tc0 0x11 (wireFrame tc0 0x41 []) ∧
    (0x99 : Byte) ≠ checkByte tc0 0x11 (wireFrame tc0 0x41 []) ∧
    firstPair tc0 [0xFB, 0x11, 0x05, 0xFA, 0xFB, 0x41, 0x00, 0x40] = some 3 := by decide
/-- PA-9: bit 0 of the fourth payload byte, and the check byte's last bit. -/
theorem witness_SingleBitErrorIsDetected :
    flipBit (wireFrame tc0 0x11 [0x01, 0x00, 0x0C, 0x00]) 7 0 =
      [0xFA, 0xFB, 0x11, 0x04, 0x01, 0x00, 0x0C, 0x01, 0x19] ∧
    (4 ≤ 8 ∧ 8 < ([0x01, 0x00, 0x0C, 0x00] : List Byte).length + 5) := by decide
theorem witness_ParseLoopRunsUntilNeedMore :
    (∃ t, parseOnce State.reset = .needMore t) ∧
    (∃ o, parseOnce { State.reset with rxbuf := [0xFA, 0xFB, 0x41, 0x00, 0x40] } = .progress o) :=
  ⟨⟨_, rfl⟩, ⟨_, rfl⟩⟩
theorem witness_RxByteAlwaysCompletes : (waiting 5).SlotAgrees ∧ (waiting 5).PendBounded ∧ (waiting 5).RxAgrees := by
  decide
theorem witness_FrameRoundTripThroughReceiver :
    (State.reset.rxbuf = [] ∧ ([] : List Byte).length ≤ 255) ∧
    ({ State.reset with rxbuf := [0xFA] } : State).rxbuf = [tc0.sync1] ∧ tc0.sync1 ≠ tc0.sync2 := by decide
theorem witness_ChunkingDoesNotMatter :
    ({ State.reset with rxbuf := [0xFA, 0xFB, 0x00, 0x06] } : State).RxAgrees := by decide
theorem witness_FrameClassSelectsTransition : (0x41 : Byte) = tc0.pollId ∧ ((0x42 : Byte) ≠ tc0.pollId ∧
    (0x42 : Byte) = tc0.ackId) ∧ ((0x99 : Byte) ≠ tc0.pollId ∧ (0x99 : Byte) ≠ tc0.ackId) := by decide
theorem witness_PollInIdleSendsAck : State.reset.st = .idle := by decide
theorem witness_PollResendsCommand : (waiting 4).st = .waitAck ∧ (waiting 4).pend = some (buy 4 false) ∧
    (buy 4 false).retries.toNat < 5 ∧ (buy 4 false).payload.length ≤ 254 := by decide
theorem witness_PollTimesOut : (waiting 5).st = .waitAck ∧ (waiting 5).pend = some (buy 5 false) ∧
    (buy 5 false).retries = 5 := by decide
theorem witness_PollFinishesTransaction : acked.st = .waitData ∧ acked.pend = some (buy 1 true) := by decide
theorem witness_AckIsAccepted : (waiting 0).st = .waitAck ∧ (waiting 0).pend = some (buy 0 false) := by decide
theorem witness_StrayAckIsAnomaly : State.reset.st ≠ .waitAck ∧ acked.st ≠ .waitAck := by decide
theorem witness_StrayDataIsAnomaly : State.reset.st ≠ .waitData ∧ (waiting 0).st ≠ .waitData := by decide
theorem witness_DataIsDeliveredAndAcked : acked.st = .waitData := by decide
theorem witness_CommandFrameIsSent :
    (List.replicate 254 (0 : Byte)).length ≤ 254 ∧ 254 < (List.replicate 255 (0 : Byte)).length := ⟨zeros_le 254 254 (by decide), lt_zeros 254 255 (by decide)⟩
theorem witness_PollAndAckPayloadIsIgnored : State.reset.rxbuf = [] ∧ (0x41 : Byte) = State.reset.cfg.pollId ∧
    (0x42 : Byte) = State.reset.cfg.ackId ∧ ([0x01, 0x02] : List Byte).length ≤ 255 ∧
    ([] : List Byte).length ≤ 255 := by decide
theorem witness_RetryBudgetIsFive : (waiting 0).st = .waitAck ∧ (waiting 0).pend = some (buy 0 false) ∧
    (buy 0 false).retries = 0 ∧ (buy 0 false).payload.length ≤ 254 := by decide
theorem witness_EnqueueIsAccepted : State.reset.st = .idle ∧ (List.replicate 254 (0 : Byte)).length ≤ 254 := ⟨rfl, zeros_le 254 254 (by decide)⟩
theorem witness_EnqueueWhileBusyChangesNothing : (waiting 0).st ≠ .idle ∧ acked.st ≠ .idle ∧
    ([0x02] : List Byte).length ≤ 254 := by decide
theorem witness_OverlongEnqueueSetsFault : 254 < (List.replicate 255 (0 : Byte)).length := lt_zeros 254 255 (by decide)
theorem witness_TwoEnqueuesCannotBothSucceed : State.reset.st = .idle ∧ ([] : List Byte).length ≤ 254 := by decide
theorem witness_SequenceNumbersFollowOneAnother :
    Instr.reset ∉ [Instr.enqueue 3 []] ∧ ∃ t, runInstrs [.enqueue 3 []] State.reset = .next t := ⟨by decide, _, rfl⟩
theorem witness_StatusShowsTheState : acked.rxbuf.length < 512 ∧ acked.pend = some (buy 1 true) ∧
    (buy 1 true).payload.length < 256 ∧ State.reset.pend = none := by decide
theorem witness_ResponseWordIsReadBack : EnqResponse.accept 255 ≠ .accept 0 ∧
    (0x003 : BitVec 10).extractLsb' 0 2 = 3 := by decide
theorem witness_EventRecordsAreDistinct : eventRecord (.finished 1) = eventRecord (.finished 1) := by rfl
/-- One side alone, each of them; both sides, where the free value picks one of the two; and a RESET with parameters
ready and with none. -/
theorem witness_StepRunsTheDecodedOperation : tc0.pollId ≠ tc0.ackId ∧ decodeOp rx00 = .ok (.rxByte 0) ∧
    decodeOp askReset = .ok .reset ∧
    (∃ u, ({ State.reset with lineIn := [rx00] } : State).Takes rx00 u) ∧
    (∃ u, ({ State.reset with hostIn := [rx00] } : State).Takes rx00 u) ∧
    (∃ u, ({ State.reset with lineIn := [rx00], hostIn := [rx00] } : State).Takes rx00 u) ∧
    (∃ u, ({ State.reset with hostIn := [askReset], paramIn := [otherParams] } : State).Takes askReset u) ∧
    (∃ u, ({ State.reset with hostIn := [askReset] } : State).Takes askReset u) ∧ State.reset.paramIn = [] :=
  ⟨by decide, rfl, rfl, ⟨_, .inl ⟨_, rfl, rfl, rfl⟩⟩, ⟨_, .inr (.inl ⟨_, rfl, rfl, rfl⟩)⟩, by
    cases h : Config.lineFirst 0
    · exact ⟨_, .inr (.inr (.inr ⟨_, rfl, by decide, h, rfl⟩))⟩
    · exact ⟨_, .inr (.inr (.inl ⟨_, rfl, by decide, h, rfl⟩))⟩,
    ⟨_, .inr (.inl ⟨_, rfl, rfl, rfl⟩)⟩, ⟨_, .inr (.inl ⟨_, rfl, rfl, rfl⟩)⟩, rfl⟩
/-- Equal ids; nothing offered; an operation that decodes and one that does not; both sides offering. -/
theorem witness_ExactlyOneOfferIsTaken :
    (State.resetWith { tc0 with ackId := 0x41 }).cfg.pollId = (State.resetWith { tc0 with ackId := 0x41 }).cfg.ackId ∧
    State.reset.cfg.pollId ≠ State.reset.cfg.ackId ∧ State.reset.lineIn = [] ∧ State.reset.hostIn = [] ∧
    ({ State.reset with lineIn := [rx00] } : State).lineIn ≠ [] ∧ decodeOp rx00 = .ok (.rxByte 0) ∧
    ({ State.reset with hostIn := [shortEnqueue] } : State).hostIn ≠ [] ∧
    decodeOp shortEnqueue = .error .payloadPortMismatch ∧
    ({ State.reset with lineIn := [rx00], hostIn := [askStatus] } : State).lineIn ≠ [] :=
  ⟨by decide, by decide, rfl, rfl, by decide, rfl, by decide, rfl, by decide⟩
theorem witness_OneOfTwoOffersIsPerformed : tc0.pollId ≠ tc0.ackId ∧ decodeOp rx00 = .ok (.rxByte 0) ∧
    decodeOp askStatus = .ok .status ∧
    ({ State.reset with lineIn := [rx00], hostIn := [askStatus] } : State).lineIn = rx00 :: [] ∧
    ({ State.reset with lineIn := [rx00], hostIn := [askStatus] } : State).hostIn = askStatus :: [] :=
  ⟨by decide, rfl, rfl, rfl, rfl⟩
theorem witness_NothingMovesUnasked : State.reset.cfg.pollId ≠ State.reset.cfg.ackId ∧ State.reset.lineIn = [] ∧
    State.reset.hostIn = [] := by decide
/-- Equal ids; a mismatched ENQUEUE from either side, and with both sides offering, whichever the free value picks. -/
theorem witness_RefusalsAreTheTwoNamed :
    (State.resetWith { tc0 with ackId := 0x41 }).cfg.pollId = (State.resetWith { tc0 with ackId := 0x41 }).cfg.ackId ∧
    step (State.resetWith { tc0 with ackId := 0x41 }) = .refused .equalReservedIds ∧ Mismatched shortEnqueue ∧
    (∃ u, ({ State.reset with lineIn := [shortEnqueue] } : State).Takes shortEnqueue u) ∧
    (∃ u, ({ State.reset with hostIn := [shortEnqueue] } : State).Takes shortEnqueue u) ∧
    (∃ u, ({ State.reset with lineIn := [shortEnqueue], hostIn := [shortEnqueue] } : State).Takes shortEnqueue u) ∧
    step { State.reset with lineIn := [shortEnqueue] } = .refused .payloadPortMismatch :=
  ⟨by decide, rfl, by unfold Mismatched; decide, ⟨_, .inl ⟨_, rfl, rfl, rfl⟩⟩, ⟨_, .inr (.inl ⟨_, rfl, rfl, rfl⟩)⟩, by
    cases h : Config.lineFirst 0
    · exact ⟨_, .inr (.inr (.inr ⟨_, rfl, by decide, h, rfl⟩))⟩
    · exact ⟨_, .inr (.inr (.inl ⟨_, rfl, by decide, h, rfl⟩))⟩, rfl⟩
/-- A step that is no RESET; a RESET with parameters ready, and with none. -/
theorem witness_ParametersAreFixedFromResetToReset : tc0.pollId ≠ tc0.ackId ∧
    (∃ t, step { State.reset with lineIn := [rx00] } = .next t) ∧
    askReset.word.extractLsb' 0 2 = 3 ∧
    (∃ u, ({ State.reset with hostIn := [askReset], paramIn := [otherParams] } : State).Takes askReset u) ∧
    (∃ u, ({ State.reset with hostIn := [askReset] } : State).Takes askReset u) ∧ State.reset.paramIn = [] :=
  ⟨by decide, ⟨_, rfl⟩, by decide, ⟨_, .inr (.inl ⟨_, rfl, rfl, rfl⟩)⟩, ⟨_, .inr (.inl ⟨_, rfl, rfl, rfl⟩)⟩, rfl⟩
theorem witness_OperationWordsDecode : (0x3FFFC : BitVec 18).extractLsb' 0 2 = 0 ∧
    (0x3FFFD : BitVec 18).extractLsb' 0 2 = 1 ∧ (0x0080E : BitVec 18).extractLsb' 0 2 = 2 ∧
    ([0x00, 0x0C] : List Byte).length = ((0x0080E : BitVec 18).extractLsb' 10 8).toNat ∧
    ([] : List Byte).length ≠ ((0x0080E : BitVec 18).extractLsb' 10 8).toNat ∧
    255 < (List.replicate 256 (0 : Byte)).length ∧ (0x3FFFF : BitVec 18).extractLsb' 0 2 = 3 :=
  ⟨by decide, by decide, by decide, by decide, by decide, lt_zeros 255 256 (by decide), by decide⟩
theorem witness_DecodeInvertsEncode : tc0.pollId ≠ tc0.ackId ∧
    wellFormed tc0 (.data 0x99 (List.replicate 255 0)) = true := by
  refine ⟨by decide, ?_⟩
  rw [wellFormed, List.length_replicate]
  rfl
theorem witness_DecodedInstructionsAreWellFormed :
    decode tc0 (.inbound [0x00, 0xFA, 0xFB, 0x41, 0x00, 0x40]) = .ok (.poll []) := by rfl
theorem witness_InboundFramesAreReadExactly :
    decodeFrame tc0 [0x00, 0xFA, 0xFB, 0x41, 0x00, 0x40, 0xFA] = .ok (.poll [], [0xFA]) ∧
    decodeFrame tc0 [0xFA, 0xFB, 0x41, 0x00, 0x41] = .ok (.badFrame 0x41 [] 0x41, [0xFB, 0x41, 0x00, 0x41]) :=
  ⟨rfl, rfl⟩
theorem witness_ReceiverRunsTheDecodedFrame :
    decodeFrame tc0 ({ State.reset with rxbuf := [0x00, 0xFA, 0xFB, 0x41, 0x00, 0x40, 0xFA] } : State).rxbuf =
      .ok (.poll [], [0xFA]) ∧
    decodeFrame tc0 ({ State.reset with rxbuf := [0xFA, 0xFB, 0x41, 0x00, 0x41] } : State).rxbuf =
      .ok (.badFrame 0x41 [] 0x41, [0xFB, 0x41, 0x00, 0x41]) ∧
    decodeFrame tc0 ({ State.reset with rxbuf := [0xFA, 0xFB, 0x41] } : State).rxbuf = .error .incompleteFrame :=
  ⟨rfl, rfl, rfl⟩
theorem witness_StepKeepsInvariants : (waiting 5).Inv ∧ ∃ t, step (waiting 5) = .next t := ⟨by decide, _, rfl⟩
theorem witness_GoodStatesNeverStop : (acked.Inv ∧ acked.cfg.pollId ≠ acked.cfg.ackId) ∧
    (∀ op ∈ ({ acked with lineIn := [rx00], paramIn := [otherParams] } : State).lineIn ++ acked.hostIn,
      ¬ Mismatched op) ∧
    ∀ c ∈ ({ acked with lineIn := [rx00], paramIn := [otherParams] } : State).paramIn, c.pollId ≠ c.ackId := by
  unfold Mismatched
  decide
theorem witness_StopsLieOutsideTheInvariants :
    (({ State.reset with st := .waitAck } : State).st ≠ .idle ∧
      ({ State.reset with st := .waitAck } : State).pend = none) ∧
    (254 < ({ buy 4 false with payload := List.replicate 255 0 } : Pending).payload.length ∧
      ({ buy 4 false with payload := List.replicate 255 0 } : Pending).retries.toNat < 5) ∧
    ((waiting 0).EngineInv ∧ wellFormed tc0 (.poll []) = true) := by
  refine ⟨by decide, ⟨lt_zeros 254 255 (by decide), by decide⟩, by decide, by decide⟩
theorem witness_OnlyResetAndOverlongEnqueueMoveFault :
    (faultOf (exec .reset { State.reset with fault := true }) = some false) ∧
    (faultOf (exec (.enqueue 3 (List.replicate 255 0)) State.reset) = some true) := by
  refine ⟨by decide, ?_⟩
  have h : Config.maxEnqPayload < (List.replicate 255 (0 : Byte)).length := lt_zeros 254 255 (by decide)
  rw [exec, execEnqueue, if_pos h]
  rfl
theorem witness_WritersOfEachRegister : stOf (exec (.ack []) (waiting 0)) = some .waitData ∧
    stOf (exec (.poll []) acked) = some .idle := by decide
theorem witness_TransmitsOnlyWhenAllowed : traceOf (exec (.poll []) State.reset) =
    some (State.reset.trace ++ [.tx [0xFA, 0xFB, 0x42, 0x00, 0x43]]) ∧
    traceOf (exec .reset State.reset) = some (State.reset.trace ++ []) := by decide
/-- R135, R136: each class of frame in a state that raises its condition and in one that does not. -/
theorem witness_ConditionsAreRaisedByTheirCause :
    ((waiting 5).st = .waitAck ∧ (waiting 5).pend = some (buy 5 false) ∧ 5 ≤ (buy 5 false).retries.toNat ∧
      traceOf (onFrame tc0.pollId [] (waiting 5)) =
        some ((waiting 5).trace ++ [.tx [0xFA, 0xFB, 0x42, 0x00, 0x43], .ev (.timeout 1)])) ∧
    (∀ q ∈ (waiting 4).pend, q.retries.toNat < 5) ∧ acked.st ≠ .waitAck ∧
    traceOf (onFrame 0x42 [] State.reset) = some (State.reset.trace ++ [.ev (.diagAnomaly .idle 0x42)]) ∧
    traceOf (onFrame 0x42 [] (waiting 5)) = some ((waiting 5).trace ++ [.ev (.acknowledged 1)]) ∧
    traceOf (onFrame 0x99 [] State.reset) = some (State.reset.trace ++ [.ev (.diagAnomaly .idle 0x99)]) ∧
    traceOf (exec (.badFrame 0x41 [] 0x41) State.reset) =
      some (State.reset.trace ++ [.ev (.diagChecksum 0x41 0x00)]) ∧
    traceOf (exec (.enqueue 3 []) (waiting 5)) = some ((waiting 5).trace ++ [.resp .busy]) ∧
    traceOf (exec .reset State.reset) = some (State.reset.trace ++ []) := by decide
/-- R133: 254 bytes are accepted in IDLE, 255 are FAULT_LEN. -/
theorem witness_ConditionsAreRaisedByTheirCause_enqueue :
    traceOf (exec (.enqueue 3 (List.replicate 254 0)) State.reset) =
      some (State.reset.trace ++ [.resp (.accept 1), .ev (.queued 1 3)]) ∧
    traceOf (exec (.enqueue 3 (List.replicate 255 0)) State.reset) = some (State.reset.trace ++ [.resp .faultLen]) := by
  have h : Config.maxEnqPayload < (List.replicate 255 (0 : Byte)).length := lt_zeros 254 255 (by decide)
  have h' : ¬ Config.maxEnqPayload < (List.replicate 254 (0 : Byte)).length :=
    Nat.not_lt.mpr (zeros_le 254 254 (by decide))
  rw [exec, exec, execEnqueue, execEnqueue, if_pos h, if_neg h']
  exact ⟨rfl, rfl⟩
theorem witness_EventsFollowTheLifeCycle : Instr.reset ∉ [Instr.poll [], Instr.ack []] ∧ (waiting 0).EngineInv ∧
    ∃ t, runInstrs [.poll [], .ack []] (waiting 0) = .next t := ⟨by decide, by decide, _, rfl⟩

end Sys2Proof.Tests
end

/-! # The scope of a step (00_scope.md R7 to R9)

What a step fetches and answers, what no instruction does (write outside the block, refuse), and the obligations of the
family that rest on it. -/

namespace Sys2Proof.Machine

/-! ## What a step that takes an offer does -/

theorem State.Takes.unique {s u u' : State} {op op' : PortOp} (h : s.Takes op u) (h' : s.Takes op' u') :
    op' = op ∧ u' = u := by
  obtain ⟨t, ht, rfl⟩ := takes_iff.mp h
  obtain ⟨t', ht', rfl⟩ := takes_iff.mp h'
  rw [ht] at ht'
  cases ht'
  exact ⟨rfl, rfl⟩

theorem decodeOp_of_mismatched {op : PortOp} (h : Mismatched op) : decodeOp op = .error .payloadPortMismatch := by
  obtain ⟨_, _, hn⟩ | ⟨he, _⟩ := decodeOp_cases op
  · exact absurd h hn
  · exact he

section Fetch

variable {s u : State} {op : PortOp}

theorem fetch_of_equal_ids (hc : s.cfg.pollId = s.cfg.ackId) : fetch s = .refuse .equalReservedIds := by
  simp [fetch, Config.legal, hc]

theorem fetch_of_takes_ok {i : Instr} (hc : s.cfg.pollId ≠ s.cfg.ackId) (hk : s.Takes op u)
    (hd : decodeOp op = .ok i) : fetch s = .run i u := by
  obtain ⟨t, ht, rfl⟩ := takes_iff.mp hk
  simp [fetch, Config.legal, hc, ht, hd]

theorem fetch_of_takes_error {e : Reject} (hc : s.cfg.pollId ≠ s.cfg.ackId) (hk : s.Takes op u)
    (hd : decodeOp op = .error e) : fetch s = .refuse .payloadPortMismatch := by
  obtain ⟨t, ht, rfl⟩ := takes_iff.mp hk
  simp [fetch, Config.legal, hc, ht, hd]

theorem step_of_equal_ids (hc : s.cfg.pollId = s.cfg.ackId) : step s = .refused .equalReservedIds := by
  rw [step, fetch_of_equal_ids hc]

theorem step_of_takes_ok {i : Instr} (hc : s.cfg.pollId ≠ s.cfg.ackId) (hk : s.Takes op u)
    (hd : decodeOp op = .ok i) : step s = settle i (exec i u) := by
  rw [step, fetch_of_takes_ok hc hk hd]

theorem step_of_takes_mismatched (hc : s.cfg.pollId ≠ s.cfg.ackId) (hk : s.Takes op u) (hm : Mismatched op) :
    step s = .refused .payloadPortMismatch := by
  rw [step, fetch_of_takes_error hc hk (decodeOp_of_mismatched hm)]

end Fetch

/-! ## A RESET and the parameters after it (R150, R153) -/

@[simp] theorem exec_reset (s : State) : exec .reset s = .next s.resetBlock := rfl

/-- The block of R32 under the parameters in force; what is outside it stays (log entry 8). -/
theorem State.resetBlock_eq (s : State) : s.resetBlock = { State.resetWith s.cfg with
    paramIn := s.paramIn, trace := s.trace, resp := s.resp, lineIn := s.lineIn, hostIn := s.hostIn, turn := s.turn } :=
  rfl

theorem State.takeParams_of_nil {s : State} (h : s.paramIn = []) : s.takeParams = s := by
  rw [State.takeParams, h]

theorem State.takeParams_of_cons {s : State} {c : Config} {cs : List Config} (h : s.paramIn = c :: cs) :
    s.takeParams = { s with cfg := c, paramIn := cs } := by
  rw [State.takeParams, h]

theorem step_of_takes_reset {s u : State} {op : PortOp} (hc : s.cfg.pollId ≠ s.cfg.ackId) (hk : s.Takes op u)
    (hd : decodeOp op = .ok .reset) : step s = .next u.resetBlock.takeParams := by
  rw [step_of_takes_ok hc hk hd, exec_reset, settle_reset, andThen_next]

/-! ## What no instruction does -/

/-- What every instruction leaves alone between `s` and `t`: the parameters, those to come, the offers and the model's
own counter stay (R29; log entries 1, 4, 5), and the trace only grows (R54). -/
structure State.KeepsOutside (s t : State) : Prop where
  cfg : t.cfg = s.cfg
  paramIn : t.paramIn = s.paramIn
  lineIn : t.lineIn = s.lineIn
  hostIn : t.hostIn = s.hostIn
  turn : t.turn = s.turn
  trace : s.trace <+: t.trace

theorem State.KeepsOutside.trans {s t u : State} (h : s.KeepsOutside t) (h' : t.KeepsOutside u) : s.KeepsOutside u where
  cfg := h'.cfg.trans h.cfg
  paramIn := h'.paramIn.trans h.paramIn
  lineIn := h'.lineIn.trans h.lineIn
  hostIn := h'.hostIn.trans h.hostIn
  turn := h'.turn.trans h.turn
  trace := h.trace.trans h'.trace

theorem State.keepsOutside_setRxbuf (s : State) (l : List Byte) : s.KeepsOutside (s.setRxbuf l) := by
  constructor <;> simp

/-- How an instruction performed in `s` may end: in a state with the same outside, or in a fault, never in a refusal. -/
def State.MayEnd (s : State) : Host.Outcome State Fault Refusal → Prop
  | .next t => s.KeepsOutside t
  | .fault _ => True
  | .refused _ => False

theorem State.KeepsOutside.mayEnd {s t : State} {o : Host.Outcome State Fault Refusal} (h : s.KeepsOutside t)
    (ho : t.MayEnd o) : s.MayEnd o := by
  cases o with
  | next u => exact h.trans ho
  | fault r => trivial
  | refused r => exact ho

theorem State.MayEnd.bind {s : State} {o : Host.Outcome State Fault Refusal}
    {f : State → Host.Outcome State Fault Refusal} (ho : s.MayEnd o) (hf : ∀ t : State, t.MayEnd (f t)) :
    s.MayEnd (andThen o f) := by
  cases o with
  | next t => exact State.KeepsOutside.mayEnd ho (hf t)
  | fault r => trivial
  | refused r => exact ho

section Meanings

variable (s : State)

theorem sendCmdFrame_mayEnd (cmd seq : Byte) (p : List Byte) : s.MayEnd (s.sendCmdFrame cmd seq p) := by
  obtain ⟨_, h⟩ | ⟨_, h⟩ := sendCmdFrame_cases s cmd seq p <;> rw [h]
  · constructor <;> simp
  · trivial

theorem execEnqueue_mayEnd (cmd : Byte) (p : List Byte) : s.MayEnd (execEnqueue cmd p s) := by
  obtain ⟨_, h⟩ | ⟨_, _, h⟩ | ⟨_, _, h⟩ := execEnqueue_cases cmd p s <;> rw [h]
  · constructor <;> simp
  · constructor <;> simp [claimSlot]
  · constructor <;> simp

theorem execPoll_mayEnd (p : List Byte) : s.MayEnd (execPoll p s) := by
  unfold execPoll
  split
  case h_1 => constructor <;> simp [pollIdle]
  case h_2 =>
    split
    · trivial
    · split
      · exact (sendCmdFrame_mayEnd s _ _ _).bind fun t => by constructor <;> simp
      · constructor <;> simp [pollTimeout]
  case h_3 =>
    split
    · trivial
    · constructor <;> simp [pollFinish]

theorem execAck_mayEnd (p : List Byte) : s.MayEnd (execAck p s) := by
  unfold execAck
  split
  case h_1 => constructor <;> simp [reportAnomaly]
  case h_2 =>
    split
    · trivial
    · constructor <;> simp [ackAccept]
  case h_3 => constructor <;> simp [reportAnomaly]

theorem execData_mayEnd (cmd : Byte) (p : List Byte) : s.MayEnd (execData cmd p s) := by
  obtain ⟨_, h⟩ | ⟨_, h⟩ := execData_cases cmd p s <;> rw [h]
  · constructor <;> simp [reportAnomaly]
  · constructor <;> simp [dataDeliver]

theorem onFrame_mayEnd (cmd : Byte) (p : List Byte) : s.MayEnd (onFrame cmd p s) := by
  obtain ⟨_, h⟩ | ⟨_, _, h⟩ | ⟨_, _, h⟩ := onFrame_cases cmd p s <;> rw [h]
  · exact execPoll_mayEnd s p
  · exact execAck_mayEnd s p
  · exact execData_mayEnd s cmd p

theorem execBadFrame_mayEnd (cmd : Byte) (p : List Byte) (k : Byte) : s.MayEnd (execBadFrame cmd p k s) := by
  constructor <;> simp

theorem parseLoop_mayEnd (fuel : Nat) : s.MayEnd (parseLoop fuel s) := by
  induction fuel generalizing s with
  | zero => trivial
  | succ fuel ih =>
    unfold parseLoop
    obtain ⟨kept, _, h⟩ | ⟨f, _, h⟩ | ⟨f, _, h⟩ := parseOnce_cases s <;> rw [h]
    · exact s.keepsOutside_setRxbuf kept
    · exact ((s.keepsOutside_setRxbuf f).mayEnd (execBadFrame_mayEnd _ _ _ _)).bind ih
    · exact ((s.keepsOutside_setRxbuf _).mayEnd (onFrame_mayEnd _ _ _)).bind ih

/-- No instruction refuses, and none writes outside the block (R29, R54, R139). -/
theorem exec_mayEnd (i : Instr) : s.MayEnd (exec i s) := by
  cases i with
  | status => constructor <;> simp
  | rxByte b => exact (s.keepsOutside_setRxbuf _).mayEnd (parseLoop_mayEnd _ _)
  | enqueue cmd p => exact execEnqueue_mayEnd s cmd p
  | reset => constructor <;> simp
  | poll p => exact execPoll_mayEnd s p
  | ack p => exact execAck_mayEnd s p
  | data cmd p => exact execData_mayEnd s cmd p
  | badFrame cmd p k => exact execBadFrame_mayEnd s cmd p k
  | ackf => constructor <;> simp
  | cmdf cmd seq p => exact sendCmdFrame_mayEnd s cmd seq p

end Meanings

theorem exec_keepsOutside {i : Instr} {s t : State} (h : exec i s = .next t) : s.KeepsOutside t := by
  have hm := exec_mayEnd s i
  rwa [h] at hm

theorem exec_ne_refused (i : Instr) (s : State) (r : Refusal) : exec i s ≠ .refused r := by
  intro h
  have hm := exec_mayEnd s i
  rwa [h] at hm

theorem settle_exec_ne_refused (i : Instr) (s : State) (r : Refusal) : settle i (exec i s) ≠ .refused r := by
  by_cases hi : i = .reset
  · subst hi
    simp
  · rw [settle_of_ne_reset hi]
    exact exec_ne_refused i s r

/-! ## The obligations -/

/-- Settles O41: no instruction refuses, so that a step's refusals are those of its fetch. -/
theorem refusalsAreTheTwoNamed : Obligations.RefusalsAreTheTwoNamed := by
  unfold Obligations.RefusalsAreTheTwoNamed
  refine ⟨fun s => step_of_equal_ids, fun s u op => step_of_takes_mismatched, fun s r h => ?_⟩
  obtain ⟨hc, hs⟩ | ⟨_, _, _, hs⟩ | ⟨_, op, u, i, _, _, hs⟩ | ⟨hc, op, u, hk, hm, hs⟩ := step_cases s <;>
    rw [hs] at h
  · cases h
    exact .inl ⟨rfl, hc⟩
  · cases h
  · exact absurd h (settle_exec_ne_refused i u r)
  · cases h
    exact .inr ⟨rfl, hc, op, u, hk, hm⟩

/-- The first half of O56: only the `takeParams` after a RESET moves the parameters (R8, R153). -/
theorem step_params {s t : State} (h : step s = .next t) : (t.cfg = s.cfg ∧ t.paramIn = s.paramIn) ∨
    ∃ op u, s.Takes op u ∧ decodeOp op = .ok .reset ∧ s.paramIn = t.cfg :: t.paramIn := by
  obtain ⟨_, hs⟩ | ⟨_, _, _, hs⟩ | ⟨_, op, u, i, hk, hd, hs⟩ | ⟨_, _, _, _, _, hs⟩ := step_cases s <;>
    rw [hs] at h
  · cases h
  · cases h
    exact .inl ⟨rfl, rfl⟩
  · obtain ⟨hcfg, hpar, _⟩ := hk.frame
    obtain ⟨_, he⟩ | ⟨rfl, v, he, rfl⟩ := settle_next h
    · have hko := exec_keepsOutside he
      exact .inl ⟨hko.cfg.trans hcfg, hko.paramIn.trans hpar⟩
    · have hko := exec_keepsOutside he
      obtain ⟨_, ht⟩ | ⟨c, cs, hp, ht⟩ := v.takeParams_cases <;> rw [ht]
      · exact .inl ⟨hko.cfg.trans hcfg, hko.paramIn.trans hpar⟩
      · exact .inr ⟨op, u, hk, hd, by rw [← hpar, ← hko.paramIn, hp]⟩
  · cases h

/-- Settles O56: `step_params`, and the RESET step computed with and without parameters ready. -/
theorem parametersAreFixedFromResetToReset : Obligations.ParametersAreFixedFromResetToReset := by
  unfold Obligations.ParametersAreFixedFromResetToReset
  refine ⟨fun s t => step_params, fun s u op hc hk hw => ?_⟩
  obtain ⟨hcfg, hpar, _, _, _, _, _, htrace, hresp⟩ := hk.frame
  rw [step_of_takes_reset hc hk (decodeOp_eq_reset hw)]
  refine ⟨fun c cs hp => ?_, fun hp => ?_⟩
  · rw [State.takeParams_of_cons (s := u.resetBlock) (hpar.trans hp), State.resetBlock_eq, htrace, hresp]
    rfl
  · rw [State.takeParams_of_nil (s := u.resetBlock) (hpar.trans hp), State.resetBlock_eq, hcfg, hpar, hp, htrace,
      hresp]
    rfl

/-- Settles O38: the step settles the meaning of the decoded operation, and settling adds `takeParams`
to a RESET alone. -/
theorem stepRunsTheDecodedOperation : Obligations.StepRunsTheDecodedOperation := by
  unfold Obligations.StepRunsTheDecodedOperation
  intro s u op i hc hk hd
  obtain ⟨_, hpar, _⟩ := hk.frame
  refine ⟨fun hi => ?_, ?_, ?_⟩
  · rw [step_of_takes_ok hc hk hd, settle_of_ne_reset hi]
  · rintro rfl hp
    rw [step_of_takes_reset hc hk hd, State.takeParams_of_nil (s := u.resetBlock) (hpar.trans hp), exec_reset]
  · rintro c cs rfl hp
    rw [step_of_takes_reset hc hk hd, State.takeParams_of_cons (s := u.resetBlock) (hpar.trans hp), exec_reset,
      andThen_next]

end Sys2Proof.Machine

/-! # The registers and their invariants (10_state.md)

What one operation can do to the engine registers and to the rest of the state, that the engine invariants I1 to I4 of
R33 follow from it, how the parse loop ends, and the obligations of the family. -/

namespace Sys2Proof.Machine

/-! ## What frames do to the registers (R105 to R114) -/

/-- The ways a frame moves `st` and the slot: not at all, a resend (R108), an accepted ack (R110), the end of the
transaction (R109, R112). -/
inductive State.EngineMove (s t : State) : Prop where
  | stay (st : t.st = s.st) (pend : t.pend = s.pend)
  | resend (q : Pending) (was : s.st = .waitAck) (held : s.pend = some q) (left : q.retries.toNat < 5)
      (st : t.st = s.st) (pend : t.pend = some q.countRetry)
  | accept (q : Pending) (was : s.st = .waitAck) (held : s.pend = some q)
      (st : t.st = .waitData) (pend : t.pend = some q.markAcked)
  | close (was : s.st ≠ .idle) (st : t.st = .idle) (pend : t.pend = none)

/-- All that a frame, or the receiver around it, can do to the registers: the engine moves, and the sequence counter,
the fault flag and the response port stay. -/
structure State.FrameStep (s t : State) : Prop where
  move : s.EngineMove t
  seqctr : t.seqctr = s.seqctr
  fault : t.fault = s.fault
  resp : t.resp = s.resp

theorem State.frameStep_emit (s : State) (o : Output) : s.FrameStep (s.emit o) := ⟨.stay rfl rfl, rfl, rfl, rfl⟩

theorem State.frameStep_setRxbuf (s : State) (l : List Byte) : s.FrameStep (s.setRxbuf l) :=
  ⟨.stay rfl rfl, rfl, rfl, rfl⟩

section FrameClasses

variable {s t : State} {cmd : Byte} {p : List Byte}

theorem execPoll_frameStep (p : List Byte) (h : execPoll p s = .next t) : s.FrameStep t ∧ t.rxbuf = s.rxbuf := by
  obtain ⟨_, rfl⟩ | ⟨q, hst, hp, hr, h⟩ | ⟨q, hst, hp, _, rfl⟩ | ⟨q, hst, hp, rfl⟩ := execPoll_next h
  · exact ⟨s.frameStep_emit _, rfl⟩
  · obtain ⟨_, rfl⟩ := pollResend_next h
    exact ⟨⟨.resend q hst hp hr rfl rfl, rfl, rfl, rfl⟩, rfl⟩
  · exact ⟨⟨.close (by simp [hst]) rfl rfl, rfl, rfl, rfl⟩, rfl⟩
  · exact ⟨⟨.close (by simp [hst]) rfl rfl, rfl, rfl, rfl⟩, rfl⟩

theorem execAck_frameStep (p : List Byte) (h : execAck p s = .next t) : s.FrameStep t ∧ t.rxbuf = s.rxbuf := by
  obtain ⟨_, rfl⟩ | ⟨q, hst, hp, rfl⟩ := execAck_next h
  · exact ⟨s.frameStep_emit _, rfl⟩
  · exact ⟨⟨.accept q hst hp rfl rfl, rfl, rfl, rfl⟩, rfl⟩

/-- A data frame moves no register at all (R107, R111, R113). -/
theorem execData_registers (h : execData cmd p s = .next t) :
    (t.st = s.st ∧ t.pend = s.pend) ∧ s.FrameStep t ∧ t.rxbuf = s.rxbuf := by
  obtain ⟨_, he⟩ | ⟨_, he⟩ := execData_cases cmd p s <;> rw [he] at h <;> cases h
  · exact ⟨⟨rfl, rfl⟩, s.frameStep_emit _, rfl⟩
  · exact ⟨⟨rfl, rfl⟩, ⟨.stay rfl rfl, rfl, rfl, rfl⟩, rfl⟩

theorem onFrame_frameStep (h : onFrame cmd p s = .next t) : s.FrameStep t ∧ t.rxbuf = s.rxbuf := by
  obtain ⟨_, he⟩ | ⟨_, _, he⟩ | ⟨_, _, he⟩ := onFrame_cases cmd p s <;> rw [he] at h
  · exact execPoll_frameStep p h
  · exact execAck_frameStep p h
  · exact (execData_registers h).2

theorem sendCmdFrame_next {q : Byte} (h : s.sendCmdFrame cmd q p = .next t) : ∃ o, t = s.emit o := by
  obtain ⟨_, he⟩ | ⟨_, he⟩ := sendCmdFrame_cases s cmd q p <;> rw [he] at h <;> cases h
  exact ⟨_, rfl⟩

end FrameClasses

/-! ## The engine invariants I1 to I4 (R33), one by one -/

theorem State.SlotAgrees.exists_pend {s : State} (h : s.SlotAgrees) (hst : s.st ≠ .idle) : ∃ q, s.pend = some q :=
  Option.isSome_iff_exists.mp (h.mpr hst)

section Invariants

variable {s t : State}

theorem State.EngineMove.slotAgrees (h : s.EngineMove t) (hi : s.SlotAgrees) : t.SlotAgrees := by
  unfold State.SlotAgrees State.pendValid at *
  cases h with
  | stay st pend => rwa [st, pend]
  | resend q was held left st pend => simp [st, pend, was]
  | accept q was held st pend => simp [st, pend]
  | close was st pend => simp [st, pend]

theorem State.EngineMove.ackedAgrees (h : s.EngineMove t) (hi : s.AckedAgrees) : t.AckedAgrees := by
  unfold State.AckedAgrees State.ackedFlag at *
  cases h with
  | stay st pend => rwa [st, pend]
  | resend q was held left st pend => simpa [st, pend, held] using hi
  | accept q was held st pend => simp [st, pend]
  | close was st pend => simp [st, pend]

theorem State.EngineMove.seqAgrees (h : s.EngineMove t) (hc : t.seqctr = s.seqctr) (hi : s.SeqAgrees) :
    t.SeqAgrees := by
  unfold State.SeqAgrees at *
  rw [hc]
  cases h with
  | stay st pend => rwa [pend]
  | resend q was held left st pend => simpa [pend] using hi q held
  | accept q was held st pend => simpa [pend] using hi q held
  | close was st pend => simp [pend]

/-- A resend counts only below MAX_RETRY (R108), so the count stays at most 5 and does not wrap. -/
theorem State.EngineMove.pendBounded (h : s.EngineMove t) (hi : s.PendBounded) : t.PendBounded := by
  unfold State.PendBounded at *
  cases h with
  | stay st pend => rwa [pend]
  | resend q was held left st pend =>
    obtain ⟨_, hlen⟩ := hi q held
    have hcount : (q.retries + 1).toNat ≤ 5 := by bv_omega
    simpa [pend] using ⟨hcount, hlen⟩
  | accept q was held st pend => simpa [pend] using hi q held
  | close was st pend => simp [pend]

theorem State.EngineMove.engineInv (h : s.EngineMove t) (hc : t.seqctr = s.seqctr) (hi : s.EngineInv) :
    t.EngineInv := by
  obtain ⟨hslot, hacked, hseq, hbound⟩ := hi
  exact ⟨h.slotAgrees hslot, h.ackedAgrees hacked, h.seqAgrees hc hseq, h.pendBounded hbound⟩

theorem State.FrameStep.engineInv (h : s.FrameStep t) (hi : s.EngineInv) : t.EngineInv :=
  h.move.engineInv h.seqctr hi

/-- The engine invariants speak of `st`, the slot and the counter alone. -/
theorem engineInv_of_registers_eq (hst : t.st = s.st) (hpend : t.pend = s.pend) (hseq : t.seqctr = s.seqctr)
    (hi : s.EngineInv) : t.EngineInv :=
  State.EngineMove.engineInv (.stay hst hpend) hseq hi

theorem engineInv_of_idle_empty (hst : s.st = .idle) (hpend : s.pend = none) : s.EngineInv := by
  simp [State.EngineInv, State.SlotAgrees, State.AckedAgrees, State.SeqAgrees, State.PendBounded, State.pendValid,
    State.ackedFlag, hst, hpend]

end Invariants

theorem nextSeq_ne_zero (c : Byte) : nextSeq c ≠ 0#8 := by
  unfold nextSeq Config.seqMax
  bv_omega

/-- An accepted ENQUEUE opens a transaction that meets I1 to I4, whatever the registers were. -/
theorem claimSlot_engineInv {cmd : Byte} {p : List Byte} (hp : p.length ≤ 254) (s : State) :
    (claimSlot cmd p s).EngineInv := by
  simp [State.EngineInv, State.SlotAgrees, State.AckedAgrees, State.SeqAgrees, State.PendBounded, State.pendValid,
    State.ackedFlag, claimSlot, freshPending, nextSeq_ne_zero, hp]

/-! ## The parse loop (R83, R90) -/

/-- What waits in the buffer after NEED_MORE has a form of R24: nothing or a lone SYNC1 where there is no pair, else the
pair and an incomplete frame. -/
theorem scan_needMore_rxForm {c : Config} {buf kept : List Byte} (h : scan c buf = .needMore kept) : RxForm c kept := by
  obtain ⟨_, hs⟩ | ⟨i, l, _, hd, hs⟩ := scan_cases c buf <;> rw [hs] at h
  · cases h
    unfold keptTail
    split
    · exact .inr (.inl rfl)
    · exact .inl rfl
  · obtain ⟨hlen, hp⟩ | ⟨_, _, hp⟩ | ⟨_, _, hp⟩ := scanAtPair_cases (buf.drop i) <;> rw [hp] at h <;> cases h
    exact .inr (.inr ⟨by rw [hd]; rfl, hlen⟩)

/-- A frame that `scan` finds is whole, and no longer than the buffer it was found in. -/
theorem scan_frame_length {c : Config} {buf h : List Byte} (hs : scan c buf = .good h ∨ scan c buf = .bad h) :
    5 + frameLen h ≤ h.length ∧ h.length ≤ buf.length := by
  obtain ⟨_, he⟩ | ⟨i, _, _, _, he⟩ := scan_cases c buf <;> rw [he] at hs
  · simp at hs
  · obtain ⟨_, hp⟩ | ⟨hl, _, hp⟩ | ⟨hl, _, hp⟩ := scanAtPair_cases (buf.drop i) <;> rw [hp] at hs <;> simp at hs
    all_goals
      subst hs
      exact ⟨hl, by simp⟩

/-- One `parse_once`: it waits, with a buffer of R24; or it takes at least one byte off the buffer (to `u`), and that
was a bad frame's, or `on_frame` goes on from there. -/
theorem parseOnce_step (s : State) :
    (∃ kept, RxForm s.cfg kept ∧ parseOnce s = .needMore (s.setRxbuf kept)) ∨
    (∃ u o, s.FrameStep u ∧ u.rxbuf.length < s.rxbuf.length ∧ parseOnce s = .progress o ∧
      (o = .next u ∨ ∃ cmd p, o = onFrame cmd p u)) := by
  obtain ⟨kept, hs, hp⟩ | ⟨f, hs, hp⟩ | ⟨f, hs, hp⟩ := parseOnce_cases s
  · exact .inl ⟨kept, scan_needMore_rxForm hs, hp⟩
  · obtain ⟨hlen, hle⟩ := scan_frame_length (.inr hs)
    refine .inr ⟨((s.setRxbuf f).emit _).setRxbuf (f.drop 1), _, ⟨.stay rfl rfl, rfl, rfl, rfl⟩, ?_, hp, .inl rfl⟩
    simp only [State.setRxbuf_rxbuf, List.length_drop]
    omega
  · obtain ⟨hlen, hle⟩ := scan_frame_length (.inl hs)
    refine .inr ⟨_, _, s.frameStep_setRxbuf _, ?_, hp, .inr ⟨_, _, rfl⟩⟩
    simp only [State.setRxbuf_rxbuf, List.length_drop]
    omega

theorem parseLoop_of_needMore {s t : State} (h : parseOnce s = .needMore t) (fuel : Nat) :
    parseLoop (fuel + 1) s = .next t := by
  rw [parseLoop, h]

theorem parseLoop_of_progress {s : State} {o : Host.Outcome State Fault Refusal} (h : parseOnce s = .progress o)
    (fuel : Nat) : parseLoop (fuel + 1) s = andThen o (parseLoop fuel) := by
  rw [parseLoop, h]

/-- What every frame keeps, the loop keeps. -/
theorem parseLoop_invariant {P : State → Prop} (hP : ∀ s t, s.FrameStep t → P s → P t) {fuel : Nat} {s t : State}
    (h : parseLoop fuel s = .next t) (hs : P s) : P t := by
  induction fuel generalizing s with
  | zero => cases h
  | succ fuel ih =>
    obtain ⟨kept, _, hp⟩ | ⟨u, o, hu, _, hp, ho⟩ := parseOnce_step s
    · rw [parseLoop_of_needMore hp] at h
      cases h
      exact hP s _ (s.frameStep_setRxbuf kept) hs
    · rw [parseLoop_of_progress hp] at h
      obtain ⟨v, hv, ht⟩ := andThen_eq_next.mp h
      obtain rfl | ⟨cmd, p, rfl⟩ := ho
      · cases hv
        exact ih ht (hP s _ hu hs)
      · exact ih ht (hP u v (onFrame_frameStep hv).1 (hP s u hu hs))

/-- The loop leaves the buffer that its last `parse_once` waits with. -/
theorem parseLoop_rxForm {fuel : Nat} {s t : State} (h : parseLoop fuel s = .next t) : RxForm t.cfg t.rxbuf := by
  induction fuel generalizing s with
  | zero => cases h
  | succ fuel ih =>
    obtain ⟨kept, hk, hp⟩ | ⟨u, o, _, _, hp, _⟩ := parseOnce_step s
    · rw [parseLoop_of_needMore hp] at h
      cases h
      exact hk
    · rw [parseLoop_of_progress hp] at h
      obtain ⟨v, _, h⟩ := andThen_eq_next.mp h
      exact ih h

/-! ## Where the operations complete (R33, R81) -/

section Completion

variable {s : State} {p : List Byte} {q : Pending}

theorem sendCmdFrame_completes (cmd seq : Byte) (hp : p.length ≤ 254) : ∃ t, s.sendCmdFrame cmd seq p = .next t := by
  obtain ⟨_, h⟩ | ⟨hl, _⟩ := sendCmdFrame_cases s cmd seq p
  · exact ⟨_, h⟩
  · omega

theorem execPoll_of_idle (p : List Byte) (hst : s.st = .idle) : execPoll p s = .next (pollIdle s) := by
  simp [execPoll, hst]

theorem execPoll_of_empty (p : List Byte) (hst : s.st ≠ .idle) (hp : s.pend = none) :
    execPoll p s = .fault .emptySlot := by
  unfold execPoll
  cases h : s.st with
  | idle => exact absurd h hst
  | waitAck => simp [hp]
  | waitData => simp [hp]

theorem execPoll_of_waitAck (p : List Byte) (hst : s.st = .waitAck) (hp : s.pend = some q) :
    execPoll p s = if q.retries.toNat < Config.maxRetry then pollResend q s else .next (pollTimeout q s) := by
  simp [execPoll, hst, hp]

theorem pollResend_of_overlong (hp : 254 < q.payload.length) : pollResend q s = .fault .buildOverlong := by
  obtain ⟨hl, _⟩ | ⟨_, h⟩ := sendCmdFrame_cases s q.cmd q.seq q.payload
  · omega
  · rw [pollResend, h, andThen_fault]

theorem execAck_of_empty (p : List Byte) (hst : s.st = .waitAck) (hp : s.pend = none) :
    execAck p s = .fault .emptySlot := by
  simp [execAck, hst, hp]

theorem execPoll_completes (p : List Byte) (h1 : s.SlotAgrees) (h4 : s.PendBounded) : ∃ t, execPoll p s = .next t := by
  cases hst : s.st with
  | idle => exact ⟨_, execPoll_of_idle _ hst⟩
  | waitAck =>
    obtain ⟨q, hq⟩ := h1.exists_pend (by simp [hst])
    rw [execPoll_of_waitAck _ hst hq]
    split
    · obtain ⟨t, ht⟩ := sendCmdFrame_completes (s := s) q.cmd q.seq (h4 q hq).2
      exact ⟨_, by rw [pollResend, ht, andThen_next]⟩
    · exact ⟨_, rfl⟩
  | waitData =>
    obtain ⟨q, hq⟩ := h1.exists_pend (by simp [hst])
    exact ⟨pollFinish q s, by simp [execPoll, hst, hq]⟩

theorem execAck_completes (p : List Byte) (h1 : s.SlotAgrees) : ∃ t, execAck p s = .next t := by
  cases hst : s.st with
  | idle => exact ⟨reportAnomaly s.cfg.ackId s, by simp [execAck, hst]⟩
  | waitAck =>
    obtain ⟨q, hq⟩ := h1.exists_pend (by simp [hst])
    exact ⟨ackAccept q s, by simp [execAck, hst, hq]⟩
  | waitData => exact ⟨reportAnomaly s.cfg.ackId s, by simp [execAck, hst]⟩

theorem execData_completes (cmd : Byte) : ∃ t, execData cmd p s = .next t := by
  obtain ⟨_, h⟩ | ⟨_, h⟩ := execData_cases cmd p s <;> exact ⟨_, h⟩

theorem execEnqueue_completes (cmd : Byte) : ∃ t, execEnqueue cmd p s = .next t := by
  obtain ⟨_, h⟩ | ⟨_, _, h⟩ | ⟨_, _, h⟩ := execEnqueue_cases cmd p s <;> exact ⟨_, h⟩

theorem onFrame_completes (cmd : Byte) (h1 : s.SlotAgrees) (h4 : s.PendBounded) : ∃ t, onFrame cmd p s = .next t := by
  obtain ⟨_, h⟩ | ⟨_, _, h⟩ | ⟨_, _, h⟩ := onFrame_cases cmd p s <;> rw [h]
  · exact execPoll_completes p h1 h4
  · exact execAck_completes p h1
  · exact execData_completes cmd

/-- Every `parse_once` that does not wait shortens the buffer, so the bound of R90 is never met. -/
theorem parseLoop_completes {fuel : Nat} (hf : s.rxbuf.length < fuel) (h1 : s.SlotAgrees) (h4 : s.PendBounded) :
    ∃ t, parseLoop fuel s = .next t := by
  induction fuel generalizing s with
  | zero => omega
  | succ fuel ih =>
    obtain ⟨kept, _, hp⟩ | ⟨u, o, hu, hshort, hp, ho⟩ := parseOnce_step s
    · exact ⟨_, parseLoop_of_needMore hp fuel⟩
    · rw [parseLoop_of_progress hp]
      have hu1 := hu.move.slotAgrees h1
      have hu4 := hu.move.pendBounded h4
      obtain rfl | ⟨cmd, p, rfl⟩ := ho
      · exact ih (by omega) hu1 hu4
      · obtain ⟨v, hv⟩ := onFrame_completes (p := p) cmd hu1 hu4
        obtain ⟨hstep, hrx⟩ := onFrame_frameStep hv
        rw [hv, andThen_next]
        exact ih (by rw [hrx]; omega) (hstep.move.slotAgrees hu1) (hstep.move.pendBounded hu4)

theorem execRxByte_completes (b : Byte) (h1 : s.SlotAgrees) (h4 : s.PendBounded) : ∃ t, execRxByte b s = .next t :=
  parseLoop_completes (Nat.lt_succ_self _) h1 h4

end Completion

/-- In a state with I1 and I4 every well-formed instruction completes. -/
theorem exec_completes {i : Instr} {s : State} (h1 : s.SlotAgrees) (h4 : s.PendBounded)
    (hw : wellFormed s.cfg i = true) : ∃ t, exec i s = .next t := by
  cases i with
  | status => exact ⟨_, rfl⟩
  | rxByte b => exact execRxByte_completes b h1 h4
  | enqueue cmd p => exact execEnqueue_completes cmd
  | reset => exact ⟨_, rfl⟩
  | poll p => exact execPoll_completes p h1 h4
  | ack p => exact execAck_completes p h1
  | data cmd p => exact execData_completes cmd
  | badFrame cmd p k => exact ⟨_, rfl⟩
  | ackf => exact ⟨_, rfl⟩
  | cmdf cmd seq p =>
    simp only [wellFormed, Bool.and_eq_true, decide_eq_true_eq] at hw
    exact sendCmdFrame_completes cmd seq hw.1

/-! ## What each instruction writes (R20, R23 to R25) -/

section Writers

variable {i : Instr} {s t : State}

/-- What every frame keeps, every instruction keeps but the three port operations that do not receive. -/
theorem exec_invariant {P : State → Prop} (hP : ∀ s t, s.FrameStep t → P s → P t) (h : exec i s = .next t)
    (hs : P s) : i = .status ∨ (∃ cmd p, i = .enqueue cmd p) ∨ i = .reset ∨ P t := by
  cases i with
  | status => exact .inl rfl
  | enqueue cmd p => exact .inr (.inl ⟨cmd, p, rfl⟩)
  | reset => exact .inr (.inr (.inl rfl))
  | rxByte b => exact .inr (.inr (.inr (parseLoop_invariant hP h (hP s _ (s.frameStep_setRxbuf _) hs))))
  | poll p => exact .inr (.inr (.inr (hP s t (execPoll_frameStep p h).1 hs)))
  | ack p => exact .inr (.inr (.inr (hP s t (execAck_frameStep p h).1 hs)))
  | data cmd p => exact .inr (.inr (.inr (hP s t (execData_registers h).2.1 hs)))
  | badFrame cmd p k => cases h; exact .inr (.inr (.inr (hP s _ ⟨.stay rfl rfl, rfl, rfl, rfl⟩ hs)))
  | ackf => cases h; exact .inr (.inr (.inr (hP s _ (s.frameStep_emit _) hs)))
  | cmdf cmd q p =>
    obtain ⟨o, rfl⟩ := sendCmdFrame_next h
    exact .inr (.inr (.inr (hP s _ (s.frameStep_emit o) hs)))

/-- Every instruction keeps I1 to I4, from every state. -/
theorem exec_engineInv (h : exec i s = .next t) (hi : s.EngineInv) : t.EngineInv := by
  obtain rfl | ⟨cmd, p, rfl⟩ | rfl | ht := exec_invariant (fun _ _ => State.FrameStep.engineInv) h hi
  · cases h
    exact engineInv_of_registers_eq rfl rfl rfl hi
  · obtain ⟨_, he⟩ | ⟨hp, _, he⟩ | ⟨_, _, he⟩ := execEnqueue_cases cmd p s <;> rw [exec, he] at h <;> cases h
    · exact engineInv_of_registers_eq rfl rfl rfl hi
    · exact claimSlot_engineInv hp s
    · exact engineInv_of_registers_eq rfl rfl rfl hi
  · cases h
    exact engineInv_of_idle_empty rfl rfl
  · exact ht

theorem exec_seqctr (h : exec i s = .next t) :
    t.seqctr = s.seqctr ∨ i = .reset ∨ ∃ cmd p, i = .enqueue cmd p ∧ p.length ≤ 254 ∧ s.st = .idle := by
  obtain rfl | ⟨cmd, p, rfl⟩ | rfl | ht :=
    exec_invariant (P := fun u => u.seqctr = s.seqctr) (fun _ _ hm => hm.seqctr.trans) h rfl
  · cases h
    exact .inl rfl
  · obtain ⟨_, he⟩ | ⟨hp, hst, he⟩ | ⟨_, _, he⟩ := execEnqueue_cases cmd p s <;> rw [exec, he] at h <;> cases h
    · exact .inl rfl
    · exact .inr (.inr ⟨cmd, p, rfl, hp, hst⟩)
    · exact .inl rfl
  · exact .inr (.inl rfl)
  · exact .inl ht

theorem exec_fault (h : exec i s = .next t) :
    t.fault = s.fault ∨ (i = .reset ∧ t.fault = false) ∨
    ((∃ cmd p, i = .enqueue cmd p ∧ 254 < p.length) ∧ t.fault = true) := by
  obtain rfl | ⟨cmd, p, rfl⟩ | rfl | ht :=
    exec_invariant (P := fun u => u.fault = s.fault) (fun _ _ hm => hm.fault.trans) h rfl
  · cases h
    exact .inl rfl
  · obtain ⟨hp, he⟩ | ⟨_, _, he⟩ | ⟨_, _, he⟩ := execEnqueue_cases cmd p s <;> rw [exec, he] at h <;> cases h
    · exact .inr (.inr ⟨⟨cmd, p, rfl, hp⟩, rfl⟩)
    · exact .inl rfl
    · exact .inl rfl
  · cases h
    exact .inr (.inl ⟨rfl, rfl⟩)
  · exact .inl ht

theorem exec_resp (h : exec i s = .next t) : t.resp = s.resp ∨ i = .status ∨ ∃ cmd p, i = .enqueue cmd p := by
  obtain hi | hi | rfl | ht := exec_invariant (P := fun u => u.resp = s.resp) (fun _ _ hm => hm.resp.trans) h rfl
  · exact .inr (.inl hi)
  · exact .inr (.inr hi)
  · cases h
    exact .inl rfl
  · exact .inl ht

theorem exec_rxbuf (h : exec i s = .next t) :
    t.rxbuf = s.rxbuf ∨ i = .reset ∨ (∃ b, i = .rxByte b) ∨ ∃ cmd p k, i = .badFrame cmd p k := by
  cases i with
  | reset => exact .inr (.inl rfl)
  | rxByte b => exact .inr (.inr (.inl ⟨b, rfl⟩))
  | badFrame cmd p k => exact .inr (.inr (.inr ⟨cmd, p, k, rfl⟩))
  | status => cases h; exact .inl rfl
  | enqueue cmd p =>
    obtain ⟨_, he⟩ | ⟨_, _, he⟩ | ⟨_, _, he⟩ := execEnqueue_cases cmd p s <;> rw [exec, he] at h <;> cases h <;>
      exact .inl rfl
  | poll p => exact .inl (execPoll_frameStep p h).2
  | ack p => exact .inl (execAck_frameStep p h).2
  | data cmd p => exact .inl (execData_registers h).2.2
  | ackf => cases h; exact .inl rfl
  | cmdf cmd q p =>
    obtain ⟨o, rfl⟩ := sendCmdFrame_next h
    exact .inl rfl

theorem exec_engine (h : exec i s = .next t) :
    (t.st = s.st ∧ t.pend = s.pend) ∨ i = .reset ∨ (∃ cmd p, i = .enqueue cmd p ∧ p.length ≤ 254 ∧ s.st = .idle) ∨
    (∃ b, i = .rxByte b) ∨ (∃ p, i = .poll p ∧ s.st ≠ .idle) ∨ (∃ p, i = .ack p ∧ s.st = .waitAck) := by
  cases i with
  | reset => exact .inr (.inl rfl)
  | rxByte b => exact .inr (.inr (.inr (.inl ⟨b, rfl⟩)))
  | status => cases h; exact .inl ⟨rfl, rfl⟩
  | enqueue cmd p =>
    obtain ⟨_, he⟩ | ⟨hp, hst, he⟩ | ⟨_, _, he⟩ := execEnqueue_cases cmd p s <;> rw [exec, he] at h <;> cases h
    · exact .inl ⟨rfl, rfl⟩
    · exact .inr (.inr (.inl ⟨cmd, p, rfl, hp, hst⟩))
    · exact .inl ⟨rfl, rfl⟩
  | poll p =>
    by_cases hst : s.st = .idle
    · rw [exec, execPoll_of_idle _ hst] at h
      cases h
      exact .inl ⟨rfl, rfl⟩
    · exact .inr (.inr (.inr (.inr (.inl ⟨p, rfl, hst⟩))))
  | ack p =>
    obtain ⟨_, rfl⟩ | ⟨_, hst, _⟩ := execAck_next (p := p) h
    · exact .inl ⟨rfl, rfl⟩
    · exact .inr (.inr (.inr (.inr (.inr ⟨p, rfl, hst⟩))))
  | data cmd p => exact .inl (execData_registers h).1
  | badFrame cmd p k => cases h; exact .inl ⟨rfl, rfl⟩
  | ackf => cases h; exact .inl ⟨rfl, rfl⟩
  | cmdf cmd q p =>
    obtain ⟨o, rfl⟩ := sendCmdFrame_next h
    exact .inl ⟨rfl, rfl⟩

end Writers

/-! ## What a step keeps of R24 -/

theorem decodeOp_ne_badFrame {op : PortOp} {i : Instr} (h : decodeOp op = .ok i) (cmd : Byte) (p : List Byte)
    (k : Byte) : i ≠ .badFrame cmd p k := by
  rintro rfl
  unfold decodeOp at h
  split at h
  · cases h
  · cases h
  · split at h <;> cases h
  · cases h

/-- A port operation keeps I5: only RX_BYTE and RESET write the buffer, and both leave a form of R24. -/
theorem exec_rxAgrees {i : Instr} {s t : State} (hport : ∀ cmd p k, i ≠ .badFrame cmd p k) (h : exec i s = .next t)
    (hi : s.RxAgrees) : t.RxAgrees := by
  obtain hrx | rfl | ⟨b, rfl⟩ | ⟨cmd, p, k, hbad⟩ := exec_rxbuf h
  · unfold State.RxAgrees
    rwa [hrx, (exec_keepsOutside h).cfg]
  · cases h
    exact .inl rfl
  · exact parseLoop_rxForm h
  · exact absurd hbad (hport cmd p k)

theorem State.Takes.inv {s u : State} {op : PortOp} (h : s.Takes op u) (hi : s.Inv) : u.Inv := by
  obtain ⟨hcfg, _, hst, hpend, hseq, hrx, _⟩ := h.frame
  obtain ⟨hengine, hform⟩ := hi
  refine ⟨engineInv_of_registers_eq hst hpend hseq hengine, ?_⟩
  unfold State.RxAgrees
  rwa [hcfg, hrx]

/-- The block at its reset values meets I1 to I5 under all parameters. -/
theorem inv_of_reset_values {s : State} (hst : s.st = .idle) (hpend : s.pend = none) (hrx : s.rxbuf = []) : s.Inv :=
  ⟨engineInv_of_idle_empty hst hpend, .inl hrx⟩

theorem settle_inv {i : Instr} {s t : State} (hport : ∀ cmd p k, i ≠ .badFrame cmd p k)
    (h : settle i (exec i s) = .next t) (hi : s.Inv) : t.Inv := by
  obtain ⟨_, he⟩ | ⟨rfl, u, he, rfl⟩ := settle_next h
  · obtain ⟨hengine, hform⟩ := hi
    exact ⟨exec_engineInv he hengine, exec_rxAgrees hport he hform⟩
  · cases he
    exact inv_of_reset_values (by simp) (by simp) (by simp)

/-! ## The status view (R30) -/

/-- Eight fields with the widths of STATUS0 are read back, each at its bits. -/
theorem status0_fields {cmd ctr seq : Byte} {fault : BitVec 1} {retries : BitVec 3} {acked valid : BitVec 1}
    {st : BitVec 2} {w : BitVec (8 + 8 + 8 + 1 + 3 + 1 + 1 + 2)}
    (hw : w = cmd ++ ctr ++ seq ++ fault ++ retries ++ acked ++ valid ++ st) :
    w.extractLsb' 0 2 = st ∧ w.extractLsb' 2 1 = valid ∧ w.extractLsb' 3 1 = acked ∧ w.extractLsb' 4 3 = retries ∧
    w.extractLsb' 7 1 = fault ∧ w.extractLsb' 8 8 = seq ∧ w.extractLsb' 16 8 = ctr ∧ w.extractLsb' 24 8 = cmd := by
  subst hw
  refine ⟨?_, ?_, ?_, ?_, ?_, ?_, ?_, ?_⟩ <;>
    simp (disch := omega) only [BitVec.extractLsb'_append_eq_of_le, BitVec.extractLsb'_append_eq_of_add_le,
      BitVec.extractLsb'_eq_self, Nat.reduceSub]

/-- Three fields with the widths of STATUS1 are read back, each at its bits. -/
theorem status1_fields {zero : BitVec 15} {len : BitVec 8} {rx : BitVec 9} {w : BitVec (15 + 8 + 9)}
    (hw : w = zero ++ len ++ rx) :
    w.extractLsb' 0 9 = rx ∧ w.extractLsb' 9 8 = len ∧ w.extractLsb' 17 15 = zero := by
  subst hw
  refine ⟨?_, ?_, ?_⟩ <;>
    simp (disch := omega) only [BitVec.extractLsb'_append_eq_of_le, BitVec.extractLsb'_append_eq_of_add_le,
      BitVec.extractLsb'_eq_self, Nat.reduceSub]

section StatusWords

variable {s : State}

theorem statusWord0_eq : statusWord0 s =
    s.pend.elim 0 Pending.cmd ++ s.seqctr ++ s.pend.elim 0 Pending.seq ++ flagBit s.fault
      ++ s.pend.elim 0 Pending.retries ++ flagBit (s.pend.any Pending.acked) ++ flagBit s.pend.isSome
      ++ stCode s.st := by
  unfold statusWord0
  cases s.pend <;> rfl

theorem pendLen_of_empty (h : s.pend = none) : pendLen s = 0 := by rw [pendLen, h]

theorem pendLen_of_full {q : Pending} (h : s.pend = some q) : pendLen s = q.payload.length := by rw [pendLen, h]

end StatusWords

/-! ## The obligations -/

/-- Settles O47: of what a step does, taking the offer moves nothing that I1 to I5 speak of, the operation keeps them,
and the parameters fixed after a RESET meet an empty buffer. -/
theorem stepKeepsInvariants : Obligations.StepKeepsInvariants := by
  unfold Obligations.StepKeepsInvariants
  intro s t hi h
  obtain ⟨_, hs⟩ | ⟨_, _, _, hs⟩ | ⟨_, op, u, i, hk, hd, hs⟩ | ⟨_, _, _, _, _, hs⟩ := step_cases s <;> rw [hs] at h
  · cases h
  · cases h
    exact hi
  · exact settle_inv (decodeOp_ne_badFrame hd) h (hk.inv hi)
  · cases h

/-- Settles O48: an empty slot in IDLE and an empty buffer meet I1 to I5. -/
theorem resetMeetsInvariants : Obligations.ResetMeetsInvariants := by
  unfold Obligations.ResetMeetsInvariants
  exact ⟨inv_of_reset_values rfl rfl rfl, fun c => inv_of_reset_values rfl rfl rfl⟩

/-- Settles O50: the three stops computed, and completion (`exec_completes`) with the invariants kept. -/
theorem stopsLieOutsideTheInvariants : Obligations.StopsLieOutsideTheInvariants := by
  unfold Obligations.StopsLieOutsideTheInvariants
  refine ⟨fun s p => execPoll_of_empty p, fun s p => execAck_of_empty p, fun s p q hst hp hr hlen => ?_,
    fun s i hi hw => ?_⟩
  · have hleft : q.retries.toNat < Config.maxRetry := hr
    rw [exec, execPoll_of_waitAck _ hst hp, if_pos hleft, pollResend_of_overlong hlen]
  · have ⟨h1, _, _, h4⟩ := hi
    obtain ⟨t, ht⟩ := exec_completes h1 h4 hw
    exact ⟨t, ht, exec_engineInv ht hi⟩

/-- Settles O51: what no instruction writes (`exec_keepsOutside`), and the writers of the fault flag. -/
theorem onlyResetAndOverlongEnqueueMoveFault : Obligations.OnlyResetAndOverlongEnqueueMoveFault := by
  unfold Obligations.OnlyResetAndOverlongEnqueueMoveFault State.failed
  intro i s t h
  obtain ⟨hcfg, hpar, hline, hhost, hturn, ⟨out, hout⟩⟩ := exec_keepsOutside h
  refine ⟨hcfg, hpar, hline, hhost, hturn, ⟨out, hout.symm⟩, ?_⟩
  obtain hf | ⟨hi, hf⟩ | ⟨hi, hf⟩ := exec_fault h <;> rw [hf]
  · cases s.fault <;> simp
  · exact ⟨fun _ _ => hi, nofun⟩
  · exact ⟨nofun, fun _ _ => hi⟩

/-- Settles O52, register by register. -/
theorem writersOfEachRegister : Obligations.WritersOfEachRegister := by
  unfold Obligations.WritersOfEachRegister
  intro i s t h
  refine ⟨(exec_seqctr h).resolve_left, (exec_rxbuf h).resolve_left, fun hne => ?_, (exec_resp h).resolve_left⟩
  exact (exec_engine h).resolve_left fun ⟨hst, hpend⟩ => hne.elim (absurd hst) (absurd hpend)

/-- Settles O35: the fields read back from the two words; a field of the slot is 0 where the slot is empty. -/
theorem statusShowsTheState : Obligations.StatusShowsTheState := by
  unfold Obligations.StatusShowsTheState
  intro s
  obtain ⟨hst, hvalid, hacked, hretries, hfault, hseq, hctr, hcmd⟩ := status0_fields (statusWord0_eq (s := s))
  obtain ⟨hrx, hlen, hzero⟩ := status1_fields (w := statusWord1 s) rfl
  refine ⟨statusWord0 s, statusWord1 s, rfl, ?_⟩
  rw [hst, hretries, hseq, hcmd, hrx, hlen, hzero]
  refine ⟨by cases s.st <;> rfl, hvalid, hacked, by cases s.pend <;> rfl, hfault, by cases s.pend <;> rfl, hctr,
    by cases s.pend <;> rfl, Nat.mod_eq_of_lt, fun q hq => ?_, fun hp => ?_, rfl⟩
  · rw [pendLen_of_full hq]
    exact Nat.mod_eq_of_lt
  · rw [pendLen_of_empty hp]
    rfl

end Sys2Proof.Machine

/-! # Ordering and synchronisation (20_memory.md R52, R53, R56)

Which offer a step takes, that ENQUEUE claims the slot in its own step, and the obligations of the family. -/

namespace Sys2Proof.Machine

/-! ## The offer a step takes (R52, R53) -/

/-- Where both sides offer, the first offer of one of them is taken; which one is the free value of log entry 4. -/
theorem takes_of_both_offer {s : State} {x y : PortOp} {xs ys : List PortOp} (hl : s.lineIn = x :: xs)
    (hh : s.hostIn = y :: ys) : s.Takes x { s with lineIn := xs, resp := none, turn := s.turn + 1 } ∨
      s.Takes y { s with hostIn := ys, resp := none, turn := s.turn + 1 } := by
  cases hf : Config.lineFirst s.turn with
  | true => exact .inl (.inr (.inr (.inl ⟨xs, hl, by simp [hh], hf, rfl⟩)))
  | false => exact .inr (.inr (.inr (.inr ⟨ys, hh, by simp [hl], hf, rfl⟩)))

/-- Where something is offered, something is taken. -/
theorem exists_takes_of_offered {s : State} (h : s.lineIn ≠ [] ∨ s.hostIn ≠ []) : ∃ op u, s.Takes op u := by
  cases ht : s.takeOffer with
  | none =>
    obtain ⟨hl, hh, _⟩ | ⟨_, _, _, _, hs⟩ | ⟨_, _, _, _, hs⟩ := takeOffer_cases s
    · exact absurd h (by simp [hl, hh])
    · simp [ht] at hs
    · simp [ht] at hs
  | some r => exact ⟨r.1, r.2.clearResp, takes_iff.mpr ⟨r.2, ht, rfl⟩⟩

/-- The offer taken is the first of its side, and every other offer stays in its order. -/
theorem State.Takes.offers {s u : State} {op : PortOp} (h : s.Takes op u) :
    (s.lineIn = op :: u.lineIn ∧ u.hostIn = s.hostIn) ∨ (s.hostIn = op :: u.hostIn ∧ u.lineIn = s.lineIn) := by
  rcases h with ⟨_, hl, _, rfl⟩ | ⟨_, hh, _, rfl⟩ | ⟨_, hl, _, _, rfl⟩ | ⟨_, hh, _, _, rfl⟩
  · exact .inl ⟨hl, rfl⟩
  · exact .inr ⟨hh, rfl⟩
  · exact .inl ⟨hl, rfl⟩
  · exact .inr ⟨hh, rfl⟩

theorem State.Takes.iff_eq {s u : State} {op : PortOp} (h : s.Takes op u) (op' : PortOp) (u' : State) :
    s.Takes op' u' ↔ op' = op ∧ u' = u := by
  refine ⟨h.unique, ?_⟩
  rintro ⟨rfl, rfl⟩
  exact h

theorem fetch_of_nothing_offered {s : State} (hc : s.cfg.pollId ≠ s.cfg.ackId) (hl : s.lineIn = [])
    (hh : s.hostIn = []) : fetch s = .idle := by
  simp [fetch, Config.legal, hc, State.takeOffer, hl, hh]

/-! ## ENQUEUE claims the slot (R56) -/

@[simp] theorem claimSlot_st (cmd : Byte) (p : List Byte) (s : State) : (claimSlot cmd p s).st = .waitAck := rfl

theorem execEnqueue_of_idle {s : State} {p : List Byte} (cmd : Byte) (hst : s.st = .idle) (hp : p.length ≤ 254) :
    execEnqueue cmd p s = .next (claimSlot cmd p s) := by
  obtain ⟨hlong, _⟩ | ⟨_, _, h⟩ | ⟨_, hne, _⟩ := execEnqueue_cases cmd p s
  · omega
  · exact h
  · exact absurd hst hne

/-- Outside IDLE an ENQUEUE of any length completes, is not accepted, and leaves the engine's registers alone. -/
theorem execEnqueue_of_busy {s : State} (cmd : Byte) (p : List Byte) (hst : s.st ≠ .idle) :
    ∃ u, execEnqueue cmd p s = .next u ∧ u.pend = s.pend ∧ u.seqctr = s.seqctr ∧ u.st = s.st ∧
      (u.resp = some (.enqueue .busy) ∨ u.resp = some (.enqueue .faultLen)) := by
  obtain ⟨_, h⟩ | ⟨_, hidle, _⟩ | ⟨_, _, h⟩ := execEnqueue_cases cmd p s
  · exact ⟨_, h, rfl, rfl, rfl, .inr rfl⟩
  · exact absurd hidle hst
  · exact ⟨_, h, rfl, rfl, rfl, .inl rfl⟩

/-! ## The obligations -/

/-- Settles O32: the first ENQUEUE leaves WAIT_ACK (`execEnqueue_of_idle`), where no ENQUEUE is accepted
(`execEnqueue_of_busy`). -/
theorem twoEnqueuesCannotBothSucceed : Obligations.TwoEnqueuesCannotBothSucceed := by
  unfold Obligations.TwoEnqueuesCannotBothSucceed
  intro s cmd cmd' p p' hst hp
  have hbusy : (claimSlot cmd p s).st ≠ .idle := by simp
  obtain ⟨u, hu, hpend, hseq, hst', hresp⟩ := execEnqueue_of_busy cmd' p' hbusy
  exact ⟨claimSlot cmd p s, u, execEnqueue_of_idle cmd hst hp, hu, hpend, hseq, hst'.trans (claimSlot_st cmd p s),
    hresp⟩

/-- Settles O39: one of the two first offers is taken (`takes_of_both_offer`), and the step settles its meaning. -/
theorem oneOfTwoOffersIsPerformed : Obligations.OneOfTwoOffersIsPerformed := by
  unfold Obligations.OneOfTwoOffersIsPerformed
  intro s x y xs ys i j hc hl hh hx hy
  exact (takes_of_both_offer hl hh).imp (step_of_takes_ok hc · hx) (step_of_takes_ok hc · hy)

/-- Settles O58: an offer is taken wherever there is one, it is unique, and `fetch` decodes it. -/
theorem exactlyOneOfferIsTaken : Obligations.ExactlyOneOfferIsTaken := by
  unfold Obligations.ExactlyOneOfferIsTaken
  refine ⟨fun s => fetch_of_equal_ids, fun s => fetch_of_nothing_offered, fun s hc ho => ?_⟩
  obtain ⟨op, u, hk⟩ := exists_takes_of_offered ho
  exact ⟨op, u, fun i => fetch_of_takes_ok hc hk, fun e => fetch_of_takes_error hc hk, hk.offers, hk.iff_eq⟩

end Sys2Proof.Machine

/-! # The encodings (30_encoding.md)

Reading and writing operation words, frames and response words, the receiver fed one frame, and the obligations of the
family. -/

namespace Sys2Proof.Machine

/-! ## Operation words (R72) -/

section OperationWords

variable {r : PortOp}

theorem decodeOp_status (h : r.word.extractLsb' 0 2 = 0) : decodeOp r = .ok .status := by
  rw [decodeOp, h]
  rfl

theorem decodeOp_rxByte (h : r.word.extractLsb' 0 2 = 1) : decodeOp r = .ok (.rxByte (opA r.word)) := by
  rw [decodeOp, h]
  rfl

/-- The payload port carries `l` bytes, or more than any `l` (log entry 6). -/
theorem decodeOp_enqueue (h : r.word.extractLsb' 0 2 = 2)
    (hl : r.payload.length = (opL r.word).toNat ∨ 255 < r.payload.length) :
    decodeOp r = .ok (.enqueue (opA r.word) r.payload) := by
  rw [decodeOp, h]
  exact if_pos hl

theorem decodeOp_ok_cases {i : Instr} (h : decodeOp r = .ok i) :
    i = .status ∨ (∃ b, i = .rxByte b) ∨ i = .reset ∨
    (∃ cmd, i = .enqueue cmd r.payload ∧ (r.payload.length = (opL r.word).toNat ∨ 255 < r.payload.length)) := by
  unfold decodeOp at h
  split at h
  · cases h
    exact .inl rfl
  · cases h
    exact .inr (.inl ⟨_, rfl⟩)
  · split at h
    next hl =>
      cases h
      exact .inr (.inr (.inr ⟨_, rfl, hl⟩))
    next => cases h
  · cases h
    exact .inr (.inr (.inl rfl))

/-- The three fields of an operation word are read back. -/
theorem opWord_fields (op : BitVec 2) (a l : Byte) :
    (opWord op a l).extractLsb' 0 2 = op ∧ opA (opWord op a l) = a ∧ opL (opWord op a l) = l := by
  refine ⟨?_, ?_, ?_⟩ <;>
    simp (disch := omega) only [opA, opL, opWord, BitVec.extractLsb'_append_eq_of_le,
      BitVec.extractLsb'_append_eq_of_add_le, BitVec.extractLsb'_eq_self, Nat.reduceSub]

end OperationWords

/-! ## The frame on the wire (R60, R62, R81) -/

theorem wireFrame_eq (c : Config) (cmd : Byte) (p : List Byte) :
    wireFrame c cmd p = frameWith c cmd p (checkByte c cmd p) := by
  simp [wireFrame, frameWith, frameHead, checkByte, lenByte, xorFold, BitVec.xor_assoc]

/-- The check byte makes the XOR of the whole frame 0 (R62). -/
theorem xorFold_frameWith_checkByte (c : Config) (cmd : Byte) (p : List Byte) :
    xorFold (frameWith c cmd p (checkByte c cmd p)) = 0 := by
  simp [frameWith, xorFold_append, checkByte, xorFold]

theorem framePayload_length_le (f : List Byte) : (framePayload f).length ≤ 255 := by
  have hn : frameLen f < 256 := BitVec.isLt _
  rw [framePayload, List.length_take]
  omega

/-- A whole frame at the head of a buffer is the layout of R60 of its own fields, and something behind it (R69). -/
theorem eq_frameWith_append {c : Config} {f l : List Byte} (hf : f = c.sync1 :: c.sync2 :: l)
    (hlen : 5 + frameLen f ≤ f.length) :
    f = frameWith c (frameCmd f) (framePayload f) (frameChk f) ++ f.drop (5 + frameLen f) := by
  obtain ⟨x, n, m, rfl⟩ : ∃ x n m, l = x :: n :: m := by
    subst hf
    match l, hlen with
    | x :: n :: m, _ => exact ⟨x, n, m, rfl⟩
    | [], h | [_], h => simp at h; omega
  have hN : frameLen f = n.toNat := by rw [hf]; rfl
  have hm : n.toNat < m.length := by
    rw [hN, hf] at hlen
    simp only [List.length_cons] at hlen
    omega
  have hpay : framePayload f = m.take n.toNat := by rw [framePayload, hN, hf]; rfl
  have hnum : lenByte (m.take n.toNat) = n := by simp [lenByte, Nat.le_of_lt hm]
  have hchk : frameChk f = m[n.toNat] := by
    rw [frameChk, hN, hf]
    simp [List.getD, Nat.add_comm 4, hm]
  have hdrop : f.drop (5 + n.toNat) = m.drop (n.toNat + 1) := by
    rw [hf]
    simp [Nat.add_comm 5]
  rw [hN, hpay, hchk, hdrop, frameWith, frameHead, hnum, List.append_assoc]
  simp [hf, frameCmd]

/-! ## Reading received bytes (R84 to R89) -/

theorem scanAtPair_of_incomplete {h : List Byte} (hlen : h.length < 4 ∨ h.length < 5 + frameLen h) :
    scanAtPair h = .needMore h := by
  obtain ⟨_, hs⟩ | ⟨hle, _, _⟩ | ⟨hle, _, _⟩ := scanAtPair_cases h
  · exact hs
  · omega
  · omega

/-- Every part of a frame up to its check byte is held (R86, R87). -/
theorem scan_frameHead_prefix {c : Config} {cmd : Byte} {p m : List Byte} (hp : p.length ≤ 255) (hne : m ≠ [])
    (hm : m <+: frameHead c cmd p) : scan c m = .needMore m := by
  have hlen : m.length ≤ p.length + 4 := by simpa using hm.length_le
  obtain ⟨rest, hrest⟩ := hm
  match m, hne with
  | [a], _ =>
    obtain ⟨rfl, _⟩ := List.cons.inj hrest
    simp [scan, firstPair, keptTail]
  | a :: b :: l, _ =>
    obtain ⟨rfl, htail⟩ := List.cons.inj hrest
    obtain ⟨rfl, _⟩ := List.cons.inj htail
    rw [scan_at_head]
    apply scanAtPair_of_incomplete
    by_cases h4 : (c.sync1 :: c.sync2 :: l).length < 4
    · exact .inl h4
    · have hn : frameLen (c.sync1 :: c.sync2 :: l) = p.length := by
        rw [frameLen, ← List.getD_append _ rest 0 3 (by omega), hrest]
        exact lenByte_toNat p hp
      exact .inr (by omega)

section Received

variable (c : Config) (cmd : Byte) (p : List Byte)

theorem decodeFrame_goodFrame (rest : List Byte) (hp : p.length ≤ 255) :
    decodeFrame c (frameWith c cmd p (checkByte c cmd p) ++ rest) = .ok (goodFrameInstr c cmd p, rest) := by
  rw [decodeFrame, scan_frameWith c cmd p _ rest hp, if_pos rfl]
  simp [frameLen_frameWith, framePayload_frameWith, hp, Nat.add_comm 5]

theorem decodeFrame_badFrame {k : Byte} (rest : List Byte) (hp : p.length ≤ 255) (hk : checkByte c cmd p ≠ k) :
    decodeFrame c (frameWith c cmd p k ++ rest) = .ok (.badFrame cmd p k, (frameWith c cmd p k ++ rest).drop 1) := by
  rw [decodeFrame, scan_frameWith c cmd p k rest hp, if_neg hk]
  simp [framePayload_frameWith, frameChk_frameWith, hp]

end Received

/-- What the frame decoder reads is a whole frame at the first pair: a good one, or one with a wrong check byte, of
which all but the first byte is left. -/
theorem decodeFrame_ok_cases {c : Config} {buf rest : List Byte} {i : Instr} (h : decodeFrame c buf = .ok (i, rest)) :
    ∃ n cmd p k tail, firstPair c buf = some n ∧ p.length ≤ 255 ∧ buf.drop n = frameWith c cmd p k ++ tail ∧
      ((checkByte c cmd p = k ∧ i = goodFrameInstr c cmd p ∧ rest = tail) ∨
       (checkByte c cmd p ≠ k ∧ i = .badFrame cmd p k ∧ rest = (frameWith c cmd p k ++ tail).drop 1)) := by
  obtain ⟨_, hs⟩ | ⟨n, l, hpair, hdrop, hs⟩ := scan_cases c buf
  · rw [decodeFrame, hs] at h
    cases h
  · have hwhole : 5 + frameLen (buf.drop n) ≤ (buf.drop n).length := by
      by_contra hshort
      rw [decodeFrame, hs, scanAtPair_of_incomplete (.inr (by omega))] at h
      cases h
    have hp := framePayload_length_le (buf.drop n)
    have hf := eq_frameWith_append hdrop hwhole
    refine ⟨n, _, _, _, _, hpair, hp, hf, ?_⟩
    have hd : decodeFrame c buf = decodeFrame c (buf.drop n) := by
      rw [decodeFrame, hs, decodeFrame, hdrop, scan_at_head]
    rw [hd, hf] at h
    by_cases hk : checkByte c (frameCmd (buf.drop n)) (framePayload (buf.drop n)) = frameChk (buf.drop n)
    · rw [← hk, decodeFrame_goodFrame _ _ _ _ hp] at h
      cases h
      exact .inl ⟨hk, rfl, rfl⟩
    · rw [decodeFrame_badFrame _ _ _ _ hp hk] at h
      cases h
      exact .inr ⟨hk, rfl, rfl⟩

/-! ## The receiver fed one frame (R83, R89) -/

@[simp] theorem State.setRxbuf_self (s : State) : s.setRxbuf s.rxbuf = s := rfl

theorem feed_append (l m : List Byte) (s : State) : feed (l ++ m) s = andThen (feed l s) (feed m) := by
  induction l generalizing s with
  | nil => rfl
  | cons b l ih => simp [feed, andThen_assoc, funext ih]

theorem feed_singleton (b : Byte) (s : State) : feed [b] s = exec (.rxByte b) s := by
  rw [feed]
  cases exec (.rxByte b) s <;> rfl

theorem parseOnce_of_needMore {s : State} {kept : List Byte} (h : scan s.cfg s.rxbuf = .needMore kept) :
    parseOnce s = .needMore (s.setRxbuf kept) := by
  rw [parseOnce, h]

/-- Bytes that are held whole, each as it arrives, are appended, and nothing else changes. -/
theorem feed_of_held {l : List Byte} {s : State}
    (h : ∀ m, m ≠ [] → m <+: l → scan s.cfg (s.rxbuf ++ m) = .needMore (s.rxbuf ++ m)) :
    feed l s = .next (s.setRxbuf (s.rxbuf ++ l)) := by
  induction l generalizing s with
  | nil => simp [feed]
  | cons b l ih =>
    have hb : exec (.rxByte b) s = .next (s.setRxbuf (s.rxbuf ++ [b])) :=
      parseLoop_of_needMore (parseOnce_of_needMore (s := s.appendRx b) (h [b] (by simp) (by simp))) _
    have hl : feed l (s.setRxbuf (s.rxbuf ++ [b])) = .next (s.setRxbuf (s.rxbuf ++ [b] ++ l)) :=
      ih fun m _ hm => by simpa using h (b :: m) (by simp) (by simpa using hm)
    rw [feed, hb, andThen_next, hl, List.append_assoc, List.singleton_append]

theorem andThen_eq_self {o : Host.Outcome State Fault Refusal} {f : State → Host.Outcome State Fault Refusal}
    (h : ∀ t, o = .next t → f t = .next t) : andThen o f = o := by
  cases o with
  | next t => exact h t rfl
  | fault r => rfl
  | refused r => rfl

theorem parseOnce_of_goodFrame {s : State} {cmd : Byte} {p rest : List Byte} (hp : p.length ≤ 255)
    (hrx : s.rxbuf = frameWith s.cfg cmd p (checkByte s.cfg cmd p) ++ rest) :
    parseOnce s = .progress (onFrame cmd p (s.setRxbuf rest)) := by
  rw [parseOnce, hrx, scan_frameWith _ cmd p _ rest hp, if_pos rfl]
  simp [frameLen_frameWith, framePayload_frameWith, hp, Nat.add_comm 5]

theorem parseLoop_of_empty {s : State} (h : s.rxbuf = []) (fuel : Nat) : parseLoop (fuel + 1) s = .next s := by
  have hs : scan s.cfg s.rxbuf = .needMore s.rxbuf := by rw [h]; rfl
  exact parseLoop_of_needMore (parseOnce_of_needMore hs) fuel

/-- A receiver that holds exactly a good frame dispatches it, and that is all. -/
theorem resolveBuffer_of_goodFrame {s : State} {cmd : Byte} {p : List Byte} (hp : p.length ≤ 255)
    (hrx : s.rxbuf = frameWith s.cfg cmd p (checkByte s.cfg cmd p)) :
    resolveBuffer s = onFrame cmd p (s.setRxbuf []) := by
  have hone := parseOnce_of_goodFrame (rest := []) hp (by simpa using hrx)
  have hlen : s.rxbuf.length = p.length + 5 := by rw [hrx, frameWith_length]
  rw [resolveBuffer, parseLoop_of_progress hone, hlen]
  exact andThen_eq_self fun t ht => parseLoop_of_empty (onFrame_frameStep ht).2 _

/-- Fed to an empty receiver, a good frame is dispatched once, and that is all (R89, R92). -/
theorem feed_wireFrame {s : State} {p : List Byte} (cmd : Byte) (hrx : s.rxbuf = []) (hp : p.length ≤ 255) :
    feed (wireFrame s.cfg cmd p) s = onFrame cmd p s := by
  have hheld : feed (frameHead s.cfg cmd p) s = .next (s.setRxbuf (frameHead s.cfg cmd p)) := by
    have h := feed_of_held (s := s) (l := frameHead s.cfg cmd p)
    rw [hrx] at h
    exact h fun m hne hm => scan_frameHead_prefix hp hne hm
  rw [wireFrame_eq, frameWith, feed_append, hheld, andThen_next, feed_singleton]
  have hlast := resolveBuffer_of_goodFrame (cmd := cmd)
    (s := (s.setRxbuf (frameHead s.cfg cmd p)).appendRx (checkByte s.cfg cmd p)) hp rfl
  have hempty : s.setRxbuf [] = s := by rw [← hrx, State.setRxbuf_self]
  exact hlast.trans (congrArg (onFrame cmd p) hempty)

/-- R63, R121: the payload of a poll or an ack is not looked at. -/
theorem onFrame_payload_irrelevant {s : State} {id : Byte} (hid : id = s.cfg.pollId ∨ id = s.cfg.ackId)
    (p p' : List Byte) : onFrame id p s = onFrame id p' s := by
  unfold onFrame
  obtain ⟨_, hc⟩ | ⟨_, _, hc⟩ | ⟨hpoll, hack, _⟩ := classify_cases s.cfg id
  · rw [hc]
    rfl
  · rw [hc]
    rfl
  · exact absurd hid (by simp [hpoll, hack])

/-! ## Reading transmitted frames (R101, R102) -/

/-- A frame with its check byte passes the layout test of `decodeTx`, and its payload is read back. -/
theorem frameWith_transmitted (c : Config) (cmd : Byte) {p : List Byte} (hp : p.length ≤ 255) :
    (frameWith c cmd p (checkByte c cmd p)).take 2 = [c.sync1, c.sync2] ∧
    (frameWith c cmd p (checkByte c cmd p)).length = 5 + frameLen (frameWith c cmd p (checkByte c cmd p)) ∧
    chkOk (frameWith c cmd p (checkByte c cmd p)) = true ∧
    framePayload (frameWith c cmd p (checkByte c cmd p)) = p := by
  have hlen := frameLen_frameWith c cmd p (checkByte c cmd p) [] hp
  have hchk := chkOk_frameWith c cmd p (checkByte c cmd p) [] hp
  have hpay := framePayload_frameWith c cmd p (checkByte c cmd p) [] hp
  rw [List.append_nil] at hlen hchk hpay
  exact ⟨rfl, by rw [hlen, frameWith_length, Nat.add_comm], by rw [hchk, beq_self_eq_true], hpay⟩

theorem decodeTx_ackFrame (c : Config) : decodeTx c (frameWith c c.ackId [] (checkByte c c.ackId [])) = .ok .ackf := by
  obtain ⟨hsync, hlen, hchk, hpay⟩ := frameWith_transmitted c c.ackId (p := []) (by simp)
  rw [decodeTx, if_pos ⟨hsync, hlen, hchk⟩, hpay]
  exact if_pos rfl

theorem decodeTx_cmdFrame (c : Config) (cmd : Byte) {q : Byte} {p : List Byte} (hq : q ≠ 0) (hp : p.length ≤ 254) :
    decodeTx c (frameWith c cmd (q :: p) (checkByte c cmd (q :: p))) = .ok (.cmdf cmd q p) := by
  obtain ⟨hsync, hlen, hchk, hpay⟩ := frameWith_transmitted c cmd (p := q :: p) (Nat.succ_le_succ hp)
  rw [decodeTx, if_pos ⟨hsync, hlen, hchk⟩, hpay]
  exact if_neg hq

theorem decodeTx_ok_cases {c : Config} {f : List Byte} {i : Instr} (h : decodeTx c f = .ok i) :
    i = .ackf ∨ ∃ cmd q p, i = .cmdf cmd q p ∧ q ≠ 0 ∧ p.length ≤ 254 := by
  unfold decodeTx at h
  split at h
  · have hp := framePayload_length_le f
    split at h
    · split at h
      · cases h
        exact .inl rfl
      · cases h
    next q p hpay =>
      rw [hpay, List.length_cons] at hp
      split at h
      · cases h
      next hq =>
        cases h
        exact .inr ⟨_, q, p, rfl, hq, by omega⟩
  · cases h

/-! ## Response words (R74) -/

theorem extractLsb'_responseWord_accept (q : Byte) :
    (responseWord (.accept q)).extractLsb' 0 2 = 0 ∧ (responseWord (.accept q)).extractLsb' 2 8 = q := by
  refine ⟨?_, ?_⟩ <;>
    simp (disch := omega) only [responseWord, BitVec.extractLsb'_append_eq_of_le,
      BitVec.extractLsb'_append_eq_of_add_le, BitVec.extractLsb'_eq_self, Nat.reduceSub]

theorem responseOfWord?_responseWord {r : EnqResponse} (hr : r ≠ .accept 0) :
    responseOfWord? (responseWord r) = some r := by
  cases r with
  | accept q =>
    obtain ⟨hcode, hseq⟩ := extractLsb'_responseWord_accept q
    have hq : q ≠ 0 := fun h => hr (by rw [h])
    simp only [responseOfWord?, hcode, hseq, if_neg hq, if_pos]
  | busy => rfl
  | faultLen => rfl

theorem responseOfWord?_of_code_three {w : BitVec 10} (h : w.extractLsb' 0 2 = 3) : responseOfWord? w = none := by
  simp [responseOfWord?, h]

/-! ## Well-formed instructions -/

theorem goodFrameInstr_wellFormed (c : Config) (cmd : Byte) {p : List Byte} (hp : p.length ≤ 255) :
    wellFormed c (goodFrameInstr c cmd p) = true := by
  unfold goodFrameInstr
  obtain ⟨_, hc⟩ | ⟨_, _, hc⟩ | ⟨hpoll, hack, hc⟩ := classify_cases c cmd <;> rw [hc]
  · exact decide_eq_true hp
  · exact decide_eq_true hp
  · simp [wellFormed, Config.maxPayload, hp, hpoll, hack]

theorem decodeOp_wellFormed (c : Config) {r : PortOp} {i : Instr} (h : decodeOp r = .ok i) :
    wellFormed c i = true ∨ ∃ cmd p, i = .enqueue cmd p ∧ 255 < p.length := by
  obtain rfl | ⟨b, rfl⟩ | rfl | ⟨cmd, rfl, hl | hlong⟩ := decodeOp_ok_cases h
  · exact .inl rfl
  · exact .inl rfl
  · exact .inl rfl
  · have hlt : (opL r.word).toNat < 256 := BitVec.isLt _
    exact .inl (decide_eq_true (show r.payload.length ≤ 255 by omega))
  · exact .inr ⟨cmd, r.payload, rfl, hlong⟩

theorem decodeFrame_wellFormed {c : Config} {buf rest : List Byte} {i : Instr}
    (h : decodeFrame c buf = .ok (i, rest)) : wellFormed c i = true := by
  obtain ⟨_, cmd, p, k, _, _, hp, _, ⟨_, rfl, _⟩ | ⟨hk, rfl, _⟩⟩ := decodeFrame_ok_cases h
  · exact goodFrameInstr_wellFormed c cmd hp
  · simp [wellFormed, Config.maxPayload, hp, Ne.symm hk]

theorem decodeTx_wellFormed {c : Config} {f : List Byte} {i : Instr} (h : decodeTx c f = .ok i) :
    wellFormed c i = true := by
  obtain rfl | ⟨cmd, q, p, rfl, hq, hp⟩ := decodeTx_ok_cases h
  · rfl
  · simpa [wellFormed, Config.maxEnqPayload, hp] using hq

/-! ## Decoding an encoding (R60, R70, R72) -/

section RoundTrip

variable (c : Config)

theorem decode_encode_enqueue (cmd : Byte) {p : List Byte} (hp : p.length ≤ 255) :
    decode c (encode c (.enqueue cmd p)) = .ok (.enqueue cmd p) := by
  obtain ⟨hop, ha, hl⟩ := opWord_fields 2 cmd (lenByte p)
  have h := decodeOp_enqueue (r := { word := opWord 2 cmd (lenByte p), payload := p }) hop
    (.inl (by rw [hl, lenByte_toNat p hp]))
  rwa [ha] at h

theorem decode_encode_rxByte (b : Byte) : decode c (encode c (.rxByte b)) = .ok (.rxByte b) := by
  obtain ⟨hop, ha, _⟩ := opWord_fields 1 b 0
  have h := decodeOp_rxByte (r := { word := opWord 1 b 0, payload := [] }) hop
  rwa [ha] at h

theorem decode_goodFrame (cmd : Byte) {p : List Byte} (hp : p.length ≤ 255) :
    decode c (.inbound (frameWith c cmd p (checkByte c cmd p))) = .ok (goodFrameInstr c cmd p) := by
  have h := decodeFrame_goodFrame c cmd p [] hp
  rw [List.append_nil] at h
  rw [decode, h]
  rfl

theorem decode_encode_badFrame (cmd : Byte) {p : List Byte} {k : Byte} (hp : p.length ≤ 255)
    (hk : k ≠ checkByte c cmd p) : decode c (encode c (.badFrame cmd p k)) = .ok (.badFrame cmd p k) := by
  have h := decodeFrame_badFrame c cmd p [] hp hk.symm
  rw [List.append_nil] at h
  rw [encode, decode, h]
  rfl

theorem goodFrameInstr_pollId (p : List Byte) : goodFrameInstr c c.pollId p = .poll p := by
  simp [goodFrameInstr, classify]

theorem goodFrameInstr_ackId (p : List Byte) (hc : c.pollId ≠ c.ackId) : goodFrameInstr c c.ackId p = .ack p := by
  simp [goodFrameInstr, classify, hc.symm]

theorem goodFrameInstr_other {cmd : Byte} (p : List Byte) (hpoll : cmd ≠ c.pollId) (hack : cmd ≠ c.ackId) :
    goodFrameInstr c cmd p = .data cmd p := by
  simp [goodFrameInstr, classify, hpoll, hack]

end RoundTrip

/-! ## The obligations -/

/-- Settles O44: a request by the fields of its word, a frame by its class and check byte. -/
theorem decodeInvertsEncode : Obligations.DecodeInvertsEncode := by
  unfold Obligations.DecodeInvertsEncode
  intro c i hc hwf
  cases i with
  | status => rfl
  | rxByte b => exact decode_encode_rxByte c b
  | enqueue cmd p => exact decode_encode_enqueue c cmd (of_decide_eq_true hwf)
  | reset => rfl
  | poll p => rw [encode, decode_goodFrame c _ (of_decide_eq_true hwf), goodFrameInstr_pollId]
  | ack p => rw [encode, decode_goodFrame c _ (of_decide_eq_true hwf), goodFrameInstr_ackId c p hc]
  | data cmd p =>
    simp only [wellFormed, Bool.and_eq_true, decide_eq_true_eq, bne_iff_ne] at hwf
    obtain ⟨⟨hp, hpoll⟩, hack⟩ := hwf
    rw [encode, decode_goodFrame c cmd hp, goodFrameInstr_other c p hpoll hack]
  | badFrame cmd p k =>
    simp only [wellFormed, Bool.and_eq_true, decide_eq_true_eq, bne_iff_ne] at hwf
    obtain ⟨hp, hk⟩ := hwf
    exact decode_encode_badFrame c cmd hp hk
  | ackf => exact decodeTx_ackFrame c
  | cmdf cmd q p =>
    simp only [wellFormed, Bool.and_eq_true, decide_eq_true_eq, bne_iff_ne] at hwf
    obtain ⟨hp, hq⟩ := hwf
    exact decodeTx_cmdFrame c cmd hq hp

/-- Settles O2: the frame R60 and R62 write out is the layout with its check byte (`wireFrame_eq`). -/
theorem buildFollowsTheLayout : Obligations.BuildFollowsTheLayout := by
  unfold Obligations.BuildFollowsTheLayout
  intro c cmd p
  rw [wireFrame_eq]
  refine ⟨fun hp => ⟨if_pos hp, frameWith_length .., xorFold_frameWith_checkByte ..⟩, fun hp => if_neg ?_⟩
  exact Nat.not_le.mpr hp

/-- Settles O27: an empty receiver dispatches the frame whole (`feed_wireFrame`), and the transition of its class
does not look at the payload. -/
theorem pollAndAckPayloadIsIgnored : Obligations.PollAndAckPayloadIsIgnored := by
  unfold Obligations.PollAndAckPayloadIsIgnored
  intro s id p p' hrx hid hp hp'
  rw [feed_wireFrame id hrx hp, feed_wireFrame id hrx hp']
  exact onFrame_payload_irrelevant hid p p'

/-- Settles O36: the fields, the read-back and the refused code, a lemma each. -/
theorem responseWordIsReadBack : Obligations.ResponseWordIsReadBack := by
  unfold Obligations.ResponseWordIsReadBack
  exact ⟨extractLsb'_responseWord_accept, rfl, rfl, fun _ => responseOfWord?_responseWord,
    fun _ => responseOfWord?_of_code_three⟩

/-- Settles O45: each of the three decoders answers well-formed instructions. -/
theorem decodedInstructionsAreWellFormed : Obligations.DecodedInstructionsAreWellFormed := by
  unfold Obligations.DecodedInstructionsAreWellFormed
  intro c m i h
  cases m with
  | port r => exact decodeOp_wellFormed c h
  | inbound bytes =>
    cases hd : decodeFrame c bytes with
    | error e =>
      rw [decode, hd] at h
      cases h
    | ok r =>
      rw [decode, hd] at h
      cases h
      exact .inl (decodeFrame_wellFormed hd)
  | outbound bytes => exact .inl (decodeTx_wellFormed h)

/-- Settles O3: the fields of R69, a lemma each. -/
theorem frameOperandsAreRead : Obligations.FrameOperandsAreRead := by
  unfold Obligations.FrameOperandsAreRead
  intro c cmd p k rest hp
  refine ⟨frameCmd_frameWith c cmd p k rest, frameLen_frameWith c cmd p k rest hp,
    framePayload_frameWith c cmd p k rest hp, frameChk_frameWith c cmd p k rest hp, ?_⟩
  rw [chkOk_frameWith c cmd p k rest hp, checkByte, beq_iff_eq]

/-- Settles O42, one clause an operation. -/
theorem operationWordsDecode : Obligations.OperationWordsDecode := by
  unfold Obligations.OperationWordsDecode
  intro w p
  exact ⟨fun h => decodeOp_status h, fun h => decodeOp_rxByte h, fun h hl => decodeOp_enqueue h (.inl hl),
    fun h hle hne => decodeOp_of_mismatched ⟨h, hle, hne⟩, fun h hl => decodeOp_enqueue h (.inr hl),
    fun h => decodeOp_eq_reset h⟩

/-- Settles O43 by running the decoders on the vectors' words. -/
theorem sampleEncodingsDecode : Obligations.SampleEncodingsDecode := by
  unfold Obligations.SampleEncodingsDecode
  exact ⟨rfl, rfl, rfl, rfl, rfl, rfl, rfl, rfl⟩

end Sys2Proof.Machine

/-! # The frame codec (40_frame_codec.md)

The checksum, the sync detector, what one `parse_once` does with the first frame of its buffer, the loop without its
bound, and that bytes which arrive later do not change what is done with those before them; then the obligations of the
family. -/

namespace Sys2Proof.Machine

/-! ## The checksum (R80, R93) -/

theorem xorFold_perm {l m : List Byte} (h : l.Perm m) : xorFold l = xorFold m := by
  induction h with
  | nil => rfl
  | cons x _ ih => rw [xorFold, xorFold, ih]
  | swap x y l => simp only [xorFold, ← BitVec.xor_assoc, BitVec.xor_comm y x]
  | trans _ _ ih₁ ih₂ => exact ih₁.trans ih₂

/-- Inverting bit `k` of one byte inverts bit `k` of the fold. -/
theorem xorFold_flipBit {f : List Byte} {j : Nat} (k : Nat) (hj : j < f.length) :
    xorFold (flipBit f j k) = xorFold f ^^^ (1#8 <<< k) := by
  unfold flipBit
  induction f generalizing j with
  | nil => simp at hj
  | cons x f ih =>
    cases j with
    | zero =>
      rw [List.modify_zero_cons, xorFold, xorFold, BitVec.xor_assoc, BitVec.xor_assoc, BitVec.xor_comm _ (xorFold f)]
    | succ j => rw [List.modify_succ_cons, xorFold, ih (by simpa using hj), xorFold, BitVec.xor_assoc]

theorem one_shiftLeft_ne_zero {k : Nat} (hk : k < 8) : 1#8 <<< k ≠ 0#8 := by
  decide +revert

/-- Four header bytes and as many bytes as the length byte asks for are a frame, its check byte right or wrong. -/
theorem exists_frameWith_of_header (c : Config) (cmd : Byte) {p m : List Byte} (hm : m.length = p.length + 1) :
    ∃ q x, q.length = p.length ∧ c.sync1 :: c.sync2 :: cmd :: lenByte p :: m = frameWith c cmd q x := by
  have hne : m ≠ [] := List.ne_nil_of_length_eq_add_one hm
  have hlen : m.dropLast.length = p.length := by simp [hm]
  refine ⟨m.dropLast, m.getLast hne, hlen, ?_⟩
  rw [frameWith, frameHead, lenByte, lenByte, hlen]
  simp only [List.cons_append, List.dropLast_append_getLast hne]

/-- A frame with one bit inverted behind its header is again a frame with that header. -/
theorem exists_frameWith_of_flipBit (c : Config) (cmd : Byte) (p : List Byte) (x : Byte) {j : Nat} (k : Nat)
    (hj : 4 ≤ j) : ∃ q y, q.length = p.length ∧ flipBit (frameWith c cmd p x) j k = frameWith c cmd q y := by
  obtain ⟨i, rfl⟩ := Nat.exists_eq_add_of_le' hj
  exact exists_frameWith_of_header c cmd (m := flipBit (p ++ [x]) i k) (by simp [flipBit])

/-! ## The sync detector (R84, R85) -/

theorem firstPair_cons_cons {c : Config} {a b : Byte} (l : List Byte) (h : ¬ (a = c.sync1 ∧ b = c.sync2)) :
    firstPair c (a :: b :: l) = (firstPair c (b :: l)).map (· + 1) := by
  rw [firstPair, if_neg h]

theorem getElem?_of_firstPair {c : Config} {buf : List Byte} {i : Nat} (h : firstPair c buf = some i) :
    buf[i]? = some c.sync1 ∧ buf[i + 1]? = some c.sync2 := by
  obtain ⟨l, hl⟩ := firstPair_drop c buf i h
  have hat : ∀ j, buf[i + j]? = (c.sync1 :: c.sync2 :: l)[j]? := fun j => by rw [← hl, List.getElem?_drop]
  exact ⟨hat 0, hat 1⟩

/-- A pair anywhere is found, there or before. -/
theorem firstPair_le_of_pair {c : Config} : ∀ {buf : List Byte} {j : Nat}, buf[j]? = some c.sync1 →
    buf[j + 1]? = some c.sync2 → ∃ i ≤ j, firstPair c buf = some i
  | [], _, h, _ => by simp at h
  | [_], _, _, h => by simp at h
  | a :: b :: l, j, h₁, h₂ => by
    by_cases hp : a = c.sync1 ∧ b = c.sync2
    · exact ⟨0, Nat.zero_le j, by rw [firstPair, if_pos hp]⟩
    · cases j with
      | zero => exact absurd ⟨Option.some.inj h₁, Option.some.inj h₂⟩ hp
      | succ j =>
        obtain ⟨i, hi, hfirst⟩ := firstPair_le_of_pair (buf := b :: l) h₁ h₂
        exact ⟨i + 1, Nat.succ_le_succ hi, by rw [firstPair_cons_cons l hp, hfirst]; rfl⟩

/-- The first pair stays the first when bytes arrive behind it. -/
theorem firstPair_append {c : Config} (l : List Byte) : ∀ {buf : List Byte} {n : Nat}, firstPair c buf = some n →
    firstPair c (buf ++ l) = some n
  | [], _, h => by cases h
  | [_], _, h => by cases h
  | a :: b :: m, n, h => by
    by_cases hp : a = c.sync1 ∧ b = c.sync2
    · rw [firstPair, if_pos hp] at h
      rw [List.cons_append, List.cons_append, firstPair, if_pos hp, h]
    · rw [firstPair_cons_cons m hp] at h
      obtain ⟨i, hi, rfl⟩ := Option.map_eq_some_iff.mp h
      rw [List.cons_append, List.cons_append, firstPair_cons_cons _ hp, ← List.cons_append, firstPair_append l hi]
      rfl

theorem firstPair_lt_length {c : Config} {buf : List Byte} {n : Nat} (h : firstPair c buf = some n) :
    n < buf.length := by
  obtain ⟨l, hl⟩ := firstPair_drop c buf n h
  by_contra hge
  rw [List.drop_eq_nil_of_le (Nat.le_of_not_lt hge)] at hl
  cases hl

/-! ## What `scan` says of a buffer and of what arrives behind it (R84 to R87) -/

/-- The bytes before the first pair have no say. -/
theorem scan_of_firstPair {c : Config} {buf : List Byte} {n : Nat} (h : firstPair c buf = some n) :
    scan c buf = scan c (buf.drop n) := by
  obtain ⟨l, hl⟩ := firstPair_drop c buf n h
  have hbuf : scan c buf = scanAtPair (buf.drop n) := by rw [scan, h]
  rw [hbuf, hl, scan_at_head]

theorem scan_append_of_firstPair {c : Config} {buf : List Byte} {n : Nat} (h : firstPair c buf = some n)
    (l : List Byte) : scan c (buf ++ l) = scan c (buf.drop n ++ l) := by
  rw [scan_of_firstPair (firstPair_append l h), List.drop_append_of_le_length (firstPair_lt_length h).le]

@[simp] theorem keptTail_cons_cons (c : Config) (a b : Byte) (l : List Byte) :
    keptTail c (a :: b :: l) = keptTail c (b :: l) := by
  simp [keptTail]

theorem scan_cons_cons {c : Config} {a b : Byte} (l : List Byte) (h : ¬ (a = c.sync1 ∧ b = c.sync2)) :
    scan c (a :: b :: l) = scan c (b :: l) := by
  unfold scan
  rw [firstPair_cons_cons l h, keptTail_cons_cons]
  cases firstPair c (b :: l) <;> rfl

theorem scan_cons_of_ne {c : Config} {a : Byte} (h : a ≠ c.sync1) : ∀ l : List Byte, scan c (a :: l) = scan c l
  | [] => by simp [scan, firstPair, keptTail, h]
  | _ :: l => scan_cons_cons l fun hp => h hp.1

/-- A buffer without a pair may be cut down to what it keeps before more arrives: a pair across the border needs the
final SYNC1 alone (R86). -/
theorem scan_append_of_no_pair {c : Config} (l : List Byte) : ∀ {buf : List Byte}, firstPair c buf = none →
    scan c (buf ++ l) = scan c (keptTail c buf ++ l)
  | [], _ => rfl
  | [a], _ => by
    by_cases ha : a = c.sync1
    · simp [keptTail, ha]
    · simpa [keptTail, ha] using scan_cons_of_ne ha l
  | a :: b :: m, h => by
    have hp : ¬ (a = c.sync1 ∧ b = c.sync2) := fun hp => by simp [firstPair, hp] at h
    rw [firstPair_cons_cons m hp, Option.map_eq_none_iff] at h
    rw [List.cons_append, List.cons_append, scan_cons_cons _ hp, ← List.cons_append, scan_append_of_no_pair l h,
      keptTail_cons_cons]

/-- What is kept at NEED_MORE stands for the whole buffer, whatever arrives later. -/
theorem scan_append_of_needMore {c : Config} {buf kept : List Byte} (h : scan c buf = .needMore kept)
    (l : List Byte) : scan c (buf ++ l) = scan c (kept ++ l) := by
  obtain ⟨hnone, hs⟩ | ⟨n, _, hpair, _, hs⟩ := scan_cases c buf <;> rw [hs] at h
  · cases h
    exact scan_append_of_no_pair l hnone
  · obtain ⟨_, hp⟩ | ⟨_, _, hp⟩ | ⟨_, _, hp⟩ := scanAtPair_cases (buf.drop n) <;> rw [hp] at h <;> cases h
    exact scan_append_of_firstPair hpair l

/-- A buffer of a form of R24 waits, and is kept whole. -/
theorem scan_of_rxForm {c : Config} {buf : List Byte} (h : RxForm c buf) : scan c buf = .needMore buf := by
  obtain rfl | rfl | ⟨hpair, hlen⟩ := h
  · rfl
  · simp [scan, firstPair, keptTail]
  · have hbuf : buf = c.sync1 :: c.sync2 :: buf.drop 2 := by
      rw [← List.take_append_drop 2 buf, hpair]
      simp
    have hs : scan c buf = scanAtPair buf := by
      rw [hbuf]
      exact scan_at_head c _
    rw [hs, scanAtPair_of_incomplete hlen]

theorem rxForm_length_le {c : Config} {buf : List Byte} (h : RxForm c buf) : buf.length ≤ 259 := by
  have hN : frameLen buf < 256 := BitVec.isLt _
  obtain rfl | rfl | ⟨_, hlen⟩ := h
  · simp
  · simp
  · omega

/-! ## The decoder beside `scan` -/

theorem goodFrameInstr_ne_badFrame (c : Config) (cmd : Byte) (p : List Byte) (cmd' : Byte) (p' : List Byte)
    (x : Byte) : goodFrameInstr c cmd p ≠ .badFrame cmd' p' x := by
  unfold goodFrameInstr
  cases classify c cmd <;> nofun

/-- A good frame's instruction is encoded as that very frame, whatever its class. -/
theorem encode_goodFrameInstr (c : Config) (cmd : Byte) (p : List Byte) :
    encode c (goodFrameInstr c cmd p) = .inbound (frameWith c cmd p (checkByte c cmd p)) := by
  unfold goodFrameInstr
  obtain ⟨rfl, hc⟩ | ⟨_, rfl, hc⟩ | ⟨_, _, hc⟩ := classify_cases c cmd <;> rw [hc] <;> rfl

theorem scan_of_decodeFrame_error {c : Config} {buf : List Byte} {e : Reject} (h : decodeFrame c buf = .error e) :
    ∃ kept, scan c buf = .needMore kept := by
  unfold decodeFrame at h
  split at h
  · exact ⟨_, ‹_›⟩
  · cases h
  · cases h

/-! ## One `parse_once` (R84, R88, R89) -/

@[simp] theorem State.setRxbuf_setRxbuf (s : State) (l m : List Byte) : (s.setRxbuf l).setRxbuf m = s.setRxbuf m := rfl

/-- `parse_once` sees of the buffer what `scan` says of it, and no more. -/
theorem parseOnce_setRxbuf_congr {s : State} {l m : List Byte} (h : scan s.cfg l = scan s.cfg m) :
    parseOnce (s.setRxbuf l) = parseOnce (s.setRxbuf m) := by
  simp [parseOnce, h]

theorem parseOnce_of_no_pair {s : State} (h : firstPair s.cfg s.rxbuf = none) :
    parseOnce s = .needMore (s.setRxbuf (keptTail s.cfg s.rxbuf)) :=
  parseOnce_of_needMore (by rw [scan, h])

/-- A whole frame at the first pair is dispatched or dropped by its check byte, the bytes before it gone. -/
theorem parseOnce_of_frame {s : State} {n : Nat} {cmd x : Byte} {p tail : List Byte}
    (hpair : firstPair s.cfg s.rxbuf = some n) (hp : p.length ≤ 255)
    (hf : s.rxbuf.drop n = frameWith s.cfg cmd p x ++ tail) :
    parseOnce s = .progress (if checkByte s.cfg cmd p = x then onFrame cmd p (s.setRxbuf tail)
      else execBadFrame cmd p x (s.setRxbuf (frameWith s.cfg cmd p x ++ tail))) := by
  rw [parseOnce, scan_of_firstPair hpair, hf, scan_frameWith _ cmd p x tail hp]
  by_cases hx : checkByte s.cfg cmd p = x
  · rw [if_pos hx, if_pos hx]
    simp [frameLen_frameWith, framePayload_frameWith, hp, Nat.add_comm 5]
  · rw [if_neg hx, if_neg hx]
    simp [framePayload_frameWith, frameChk_frameWith, hp]

theorem parseOnce_of_badFrame {s : State} {cmd x : Byte} {p rest : List Byte} (hp : p.length ≤ 255)
    (hx : x ≠ checkByte s.cfg cmd p) (hrx : s.rxbuf = frameWith s.cfg cmd p x ++ rest) :
    parseOnce s = .progress (execBadFrame cmd p x s) := by
  have hpair : firstPair s.cfg s.rxbuf = some 0 := by rw [hrx]; exact firstPair_at_head s.cfg _
  rw [parseOnce_of_frame hpair hp hrx, if_neg hx.symm, ← hrx, State.setRxbuf_self]

theorem andThen_congr {o : Host.Outcome State Fault Refusal} {f g : State → Host.Outcome State Fault Refusal}
    (h : ∀ t, o = .next t → f t = g t) : andThen o f = andThen o g := by
  cases o with
  | next t => exact h t rfl
  | fault r => rfl
  | refused r => rfl

theorem execPoll_setRxbuf (p l : List Byte) (s : State) :
    execPoll p (s.setRxbuf l) = andThen (execPoll p s) fun t => .next (t.setRxbuf l) := by
  unfold execPoll
  rw [State.setRxbuf_st, State.setRxbuf_pend]
  cases s.st with
  | idle => rfl
  | waitAck =>
    cases s.pend with
    | none => rfl
    | some q =>
      by_cases hr : q.retries.toNat < Config.maxRetry
      · simp only [if_pos hr, pollResend, State.sendCmdFrame, State.setRxbuf_cfg]
        cases cmdFrame s.cfg q.cmd q.seq q.payload <;> rfl
      · simp only [if_neg hr]
        rfl
  | waitData => cases s.pend <;> rfl

theorem execAck_setRxbuf (p l : List Byte) (s : State) :
    execAck p (s.setRxbuf l) = andThen (execAck p s) fun t => .next (t.setRxbuf l) := by
  unfold execAck
  rw [State.setRxbuf_st, State.setRxbuf_pend]
  cases s.st with
  | idle => rfl
  | waitAck => cases s.pend <;> rfl
  | waitData => rfl

theorem execData_setRxbuf (cmd : Byte) (p l : List Byte) (s : State) :
    execData cmd p (s.setRxbuf l) = andThen (execData cmd p s) fun t => .next (t.setRxbuf l) := by
  unfold execData
  rw [State.setRxbuf_st]
  cases s.st <;> rfl

/-- `on_frame` neither reads nor writes the buffer (R100). -/
theorem onFrame_setRxbuf (cmd : Byte) (p l : List Byte) (s : State) :
    onFrame cmd p (s.setRxbuf l) = andThen (onFrame cmd p s) fun t => .next (t.setRxbuf l) := by
  unfold onFrame
  rw [State.setRxbuf_cfg]
  cases classify s.cfg cmd with
  | poll => exact execPoll_setRxbuf p l s
  | ack => exact execAck_setRxbuf p l s
  | data => exact execData_setRxbuf cmd p l s

/-- `on_frame` with further bytes in the buffer ends with those bytes in the buffer. -/
theorem onFrame_setRxbuf_append (cmd : Byte) (p l : List Byte) (s : State) :
    onFrame cmd p (s.setRxbuf (s.rxbuf ++ l)) =
      andThen (onFrame cmd p s) fun t => .next (t.setRxbuf (t.rxbuf ++ l)) := by
  rw [onFrame_setRxbuf]
  exact andThen_congr fun t ht => by rw [(onFrame_frameStep ht).2]

/-- Bytes behind those held do not change what `parse_once` does with a frame, nor what it waits for. -/
theorem parseOnce_append (s : State) (l : List Byte) :
    (∃ kept, parseOnce s = .needMore (s.setRxbuf kept) ∧
      parseOnce (s.setRxbuf (s.rxbuf ++ l)) = parseOnce (s.setRxbuf (kept ++ l))) ∨
    (∃ o, parseOnce s = .progress o ∧
      parseOnce (s.setRxbuf (s.rxbuf ++ l)) = .progress (andThen o fun t => .next (t.setRxbuf (t.rxbuf ++ l)))) := by
  cases hd : decodeFrame s.cfg s.rxbuf with
  | error e =>
    obtain ⟨kept, hk⟩ := scan_of_decodeFrame_error hd
    exact .inl ⟨kept, parseOnce_of_needMore hk, parseOnce_setRxbuf_congr (scan_append_of_needMore hk l)⟩
  | ok r =>
    obtain ⟨n, cmd, p, x, tail, hpair, hp, hf, _⟩ := decodeFrame_ok_cases hd
    refine .inr ⟨_, parseOnce_of_frame hpair hp hf, ?_⟩
    have hf' : (s.rxbuf ++ l).drop n = frameWith s.cfg cmd p x ++ (tail ++ l) := by
      rw [List.drop_append_of_le_length (firstPair_lt_length hpair).le, hf, List.append_assoc]
    refine (parseOnce_of_frame (s := s.setRxbuf (s.rxbuf ++ l)) (firstPair_append l hpair) hp hf').trans
      (congrArg _ ?_)
    by_cases hx : checkByte s.cfg cmd p = x
    · rw [State.setRxbuf_cfg, if_pos hx, if_pos hx]
      exact onFrame_setRxbuf_append cmd p l (s.setRxbuf tail)
    · rw [State.setRxbuf_cfg, if_neg hx, if_neg hx, ← List.append_assoc]
      rfl

/-! ## The loop without its bound (R83, R90) -/

/-- Whatever a PROGRESS ends with holds fewer bytes than before (R90). -/
theorem parseOnce_progress_shortens {s t : State} {o : Host.Outcome State Fault Refusal}
    (h : parseOnce s = .progress o) (ho : o = .next t) : t.rxbuf.length < s.rxbuf.length := by
  obtain ⟨_, _, hp⟩ | ⟨u, o', _, hshort, hp, ho'⟩ := parseOnce_step s <;> rw [hp] at h <;> cases h
  obtain hu | ⟨cmd, p, hf⟩ := ho'
  · cases hu.symm.trans ho
    exact hshort
  · rw [(onFrame_frameStep (hf.symm.trans ho)).2]
    exact hshort

theorem parseLoop_fuel_irrelevant {m n : Nat} {s : State} (hm : s.rxbuf.length < m) (hn : s.rxbuf.length < n) :
    parseLoop m s = parseLoop n s := by
  induction m generalizing n s with
  | zero => omega
  | succ m ih =>
    obtain ⟨n, rfl⟩ := Nat.exists_eq_add_one_of_ne_zero (Nat.ne_zero_of_lt hn)
    cases hp : parseOnce s with
    | needMore t => rw [parseLoop_of_needMore hp, parseLoop_of_needMore hp]
    | progress o =>
      rw [parseLoop_of_progress hp, parseLoop_of_progress hp]
      refine andThen_congr fun t ht => ?_
      have hshort := parseOnce_progress_shortens hp ht
      exact ih (by omega) (by omega)

theorem resolveBuffer_of_needMore {s t : State} (h : parseOnce s = .needMore t) : resolveBuffer s = .next t :=
  parseLoop_of_needMore h _

theorem resolveBuffer_of_held {s : State} (h : scan s.cfg s.rxbuf = .needMore s.rxbuf) : resolveBuffer s = .next s :=
  resolveBuffer_of_needMore (parseOnce_of_needMore h)

theorem resolveBuffer_of_progress {s : State} {o : Host.Outcome State Fault Refusal} (h : parseOnce s = .progress o) :
    resolveBuffer s = andThen o resolveBuffer := by
  rw [resolveBuffer, parseLoop_of_progress h]
  exact andThen_congr fun t ht =>
    parseLoop_fuel_irrelevant (parseOnce_progress_shortens h ht) (Nat.lt_succ_self _)

theorem resolveBuffer_congr {s t : State} (h : parseOnce s = parseOnce t) : resolveBuffer s = resolveBuffer t := by
  cases hp : parseOnce t with
  | needMore u => rw [resolveBuffer_of_needMore hp, resolveBuffer_of_needMore (h.trans hp)]
  | progress o => rw [resolveBuffer_of_progress hp, resolveBuffer_of_progress (h.trans hp)]

theorem resolveBuffer_of_badFrame {s : State} {cmd x : Byte} {p : List Byte} (hp : p.length ≤ 255)
    (hx : x ≠ checkByte s.cfg cmd p) (hrx : s.rxbuf = frameWith s.cfg cmd p x) :
    resolveBuffer s = resolveBuffer ((s.emit (.ev (.diagChecksum cmd (lenByte p)))).setRxbuf s.rxbuf.tail) := by
  rw [resolveBuffer_of_progress (parseOnce_of_badFrame (rest := []) hp hx (by rw [hrx, List.append_nil])),
    execBadFrame, andThen_next, List.drop_one, State.emitEv_eq]

theorem resolveBuffer_of_goodFrame_at_pair {s : State} {n : Nat} {cmd : Byte} {p tail : List Byte}
    (hpair : firstPair s.cfg s.rxbuf = some n) (hp : p.length ≤ 255)
    (hf : s.rxbuf.drop n = frameWith s.cfg cmd p (checkByte s.cfg cmd p) ++ tail) :
    resolveBuffer s = andThen (onFrame cmd p (s.setRxbuf tail)) resolveBuffer := by
  rw [resolveBuffer_of_progress (parseOnce_of_frame hpair hp hf), if_pos rfl]

/-! ## One byte a step, or all at once (R94) -/

/-- Bytes may be appended before the buffer is resolved or after. By induction on the bytes held: each `parse_once` does
the same with and without them (`parseOnce_append`). -/
theorem feedChunk_eq_andThen_resolveBuffer (l : List Byte) (s : State) :
    feedChunk l s = andThen (resolveBuffer s) (feedChunk l) := by
  induction hn : s.rxbuf.length using Nat.strong_induction_on generalizing s with
  | _ n ih =>
    obtain ⟨kept, hp, hp'⟩ | ⟨o, hp, hp'⟩ := parseOnce_append s l
    · rw [resolveBuffer_of_needMore hp]
      exact resolveBuffer_congr hp'
    · rw [resolveBuffer_of_progress hp, feedChunk, resolveBuffer_of_progress hp', andThen_assoc, andThen_assoc]
      refine andThen_congr fun t ht => ?_
      exact ih _ (hn ▸ parseOnce_progress_shortens hp ht) t rfl

theorem feedChunk_append (l m : List Byte) (s : State) :
    feedChunk (l ++ m) s = andThen (feedChunk l s) (feedChunk m) := by
  have h := feedChunk_eq_andThen_resolveBuffer m (s.setRxbuf (s.rxbuf ++ l))
  rwa [feedChunk, State.setRxbuf_rxbuf, State.setRxbuf_setRxbuf, List.append_assoc] at h

theorem resolveBuffer_of_rxAgrees {s : State} (h : s.RxAgrees) : resolveBuffer s = .next s :=
  resolveBuffer_of_held (scan_of_rxForm h)

theorem feed_eq_feedChunk {s : State} (l : List Byte) (h : s.RxAgrees) : feed l s = feedChunk l s := by
  induction l generalizing s with
  | nil => rw [feed, feedChunk, List.append_nil, State.setRxbuf_self, resolveBuffer_of_rxAgrees h]
  | cons b l ih =>
    rw [← List.singleton_append, feedChunk_append]
    exact andThen_congr fun t ht => ih (parseLoop_rxForm ht)

/-! ## A built frame (R92) -/

/-- A lone SYNC1 before a frame has no say where the sync bytes differ (R86). -/
theorem scan_sync1_append {c : Config} (h : c.sync1 ≠ c.sync2) (l : List Byte) :
    scan c ([c.sync1] ++ c.sync1 :: l) = scan c (c.sync1 :: l) :=
  scan_cons_cons l fun hp => h hp.2

theorem resolveBuffer_of_frameHead {s : State} {cmd : Byte} {p : List Byte} (hp : p.length ≤ 255)
    (hrx : s.rxbuf = frameHead s.cfg cmd p) : resolveBuffer s = .next s := by
  apply resolveBuffer_of_held
  rw [hrx]
  exact scan_frameHead_prefix hp (List.cons_ne_nil _ _) ⟨[], List.append_nil _⟩

/-- To an empty receiver, or to a lone SYNC1 where the sync bytes differ, bytes that begin with SYNC1 are what an empty
receiver finds. -/
theorem feed_of_sync1 {s : State} (hrx : s.rxbuf = [] ∨ (s.rxbuf = [s.cfg.sync1] ∧ s.cfg.sync1 ≠ s.cfg.sync2))
    (l : List Byte) : feed (s.cfg.sync1 :: l) s = resolveBuffer (s.setRxbuf (s.cfg.sync1 :: l)) := by
  obtain h | ⟨h, hne⟩ := hrx
  · rw [feed_eq_feedChunk _ (.inl h), feedChunk, h, List.nil_append]
  · rw [feed_eq_feedChunk _ (.inr (.inl h)), feedChunk, h]
    exact resolveBuffer_congr (parseOnce_setRxbuf_congr (scan_sync1_append hne l))

/-! ## The obligations -/

/-- Settles O14: the receiver resolves what an empty one would hold (`feed_of_sync1`), which is a frame but for its last
byte, and then a good frame. -/
theorem frameRoundTripThroughReceiver : Obligations.FrameRoundTripThroughReceiver := by
  unfold Obligations.FrameRoundTripThroughReceiver
  intro s cmd p hp hrx
  rw [wireFrame_eq, frameWith, List.dropLast_concat]
  exact ⟨(feed_of_sync1 hrx _).trans (resolveBuffer_of_frameHead hp rfl),
    (feed_of_sync1 hrx _).trans (resolveBuffer_of_goodFrame hp rfl)⟩

/-- Settles O1: the two equations of the fold, and induction on the permutation. -/
theorem xorFoldIgnoresOrder : Obligations.XorFoldIgnoresOrder := by
  unfold Obligations.XorFoldIgnoresOrder
  exact ⟨rfl, fun _ _ => rfl, fun _ _ => xorFold_perm, by decide⟩

/-- Settles O4: what is found is a pair (`getElem?_of_firstPair`), and every pair stands there or behind it
(`firstPair_le_of_pair`). -/
theorem syncDetectorFindsFirstPair : Obligations.SyncDetectorFindsFirstPair := by
  unfold Obligations.SyncDetectorFindsFirstPair
  refine fun c buf => ⟨fun i hi => ?_, fun hnone j ⟨h₁, h₂⟩ => ?_⟩
  · obtain ⟨hsync1, hsync2⟩ := getElem?_of_firstPair hi
    refine ⟨hsync1, hsync2, fun j hj ⟨h₁, h₂⟩ => ?_⟩
    obtain ⟨i', hle, hi'⟩ := firstPair_le_of_pair h₁ h₂
    cases hi.symm.trans hi'
    omega
  · obtain ⟨i, _, hi⟩ := firstPair_le_of_pair h₁ h₂
    cases hnone.symm.trans hi

/-- Settles O5: without a pair `parse_once` waits with `keptTail` (`parseOnce_of_no_pair`), and one byte a
step does what one read does (`feed_eq_feedChunk`). -/
theorem noiseLeavesNoTrace : Obligations.NoiseLeavesNoTrace := by
  unfold Obligations.NoiseLeavesNoTrace
  refine ⟨fun c buf => rfl, fun s => parseOnce_of_no_pair, fun s l hrx hnone => ?_⟩
  rw [feed_eq_feedChunk l (hrx.imp_right .inl)]
  exact resolveBuffer_of_needMore (parseOnce_of_no_pair (s := s.setRxbuf (s.rxbuf ++ l)) hnone)

/-- Settles O10: the bad outer frame loses its first byte, the first pair is then the inner frame's, and the inner frame
is good. -/
theorem frameInsideBadFrameIsFound : Obligations.FrameInsideBadFrameIsFound := by
  unfold Obligations.FrameInsideBadFrameIsFound
  intro s outer cmd k p hp hrx hk hpair
  have hlen : (wireFrame s.cfg cmd p).length = p.length + 5 := by rw [wireFrame_eq, frameWith_length]
  have htail : (s.rxbuf ++ [k]).tail = s.rxbuf.tail ++ [k] := by rw [hrx]; rfl
  have hdrop : exec (.rxByte k) s = _ := resolveBuffer_of_badFrame (s := s.appendRx k)
    (by omega) hk (by rw [State.appendRx_eq, State.setRxbuf_rxbuf, hrx]; rfl)
  rw [lenByte, hlen, State.appendRx_eq, State.setRxbuf_rxbuf, htail] at hdrop
  exact hdrop.trans (resolveBuffer_of_goodFrame_at_pair (firstPair_append [k] hpair) (by omega)
    (by rw [State.setRxbuf_rxbuf, hrx, wireFrame_eq]; rfl))

/-- Settles O11: the damaged frame keeps its header, so it is judged by its check byte, and its bytes no longer fold
to 0. -/
theorem singleBitErrorIsDetected : Obligations.SingleBitErrorIsDetected := by
  unfold Obligations.SingleBitErrorIsDetected
  intro c cmd p j k hp hj hlt hk
  have hfold : xorFold (flipBit (wireFrame c cmd p) j k) = 1#8 <<< k := by
    rw [wireFrame_eq, xorFold_flipBit k (by rwa [frameWith_length]), xorFold_frameWith_checkByte]
    exact BitVec.zero_xor
  rw [wireFrame_eq] at hfold ⊢
  obtain ⟨q, y, hq, hflip⟩ := exists_frameWith_of_flipBit c cmd p (checkByte c cmd p) k hj
  rw [hflip] at hfold ⊢
  have hy : checkByte c cmd q ≠ y := by
    rintro rfl
    rw [xorFold_frameWith_checkByte] at hfold
    exact one_shiftLeft_ne_zero hk hfold.symm
  have hscan := scan_frameWith c cmd q y [] (by omega)
  rwa [if_neg hy, List.append_nil] at hscan

/-- Settles O12: the fuel is never used up (`resolveBuffer_of_progress`). -/
theorem parseLoopRunsUntilNeedMore : Obligations.ParseLoopRunsUntilNeedMore := by
  unfold Obligations.ParseLoopRunsUntilNeedMore
  exact ⟨fun _ _ => resolveBuffer_of_needMore, fun _ _ => resolveBuffer_of_progress, fun _ _ => rfl⟩

/-- Settles O13: completion and the form of R24 are the loop's, the rest what no instruction or no frame writes. -/
theorem rxByteAlwaysCompletes : Obligations.RxByteAlwaysCompletes := by
  unfold Obligations.RxByteAlwaysCompletes
  intro s b hslot hbound
  obtain ⟨t, ht⟩ := execRxByte_completes b hslot hbound
  have hexec : exec (.rxByte b) s = .next t := ht
  have hseq : t.seqctr = s.seqctr := by simpa using exec_seqctr hexec
  have hfault : t.fault = s.fault := by simpa using exec_fault hexec
  have hresp : t.resp = s.resp := by simpa using exec_resp hexec
  obtain ⟨hcfg, hpar, hline, hhost, hturn, ⟨out, hout⟩⟩ := exec_keepsOutside hexec
  have hform : RxForm s.cfg t.rxbuf := hcfg ▸ parseLoop_rxForm ht
  refine ⟨t, hexec, hform, rxForm_length_le hform, fun hrx => ?_, ⟨out, hout.symm⟩, hcfg, hpar, hseq,
    hfault, hresp, hline, hhost, hturn⟩
  have hlen := rxForm_length_le hrx
  simp [Config.rxCap]
  omega

/-- Settles O46: what the decoder reads is the encoding of a frame at the first pair (`decodeFrame_ok_cases`). -/
theorem inboundFramesAreReadExactly : Obligations.InboundFramesAreReadExactly := by
  unfold Obligations.InboundFramesAreReadExactly
  intro c buf rest i h
  obtain ⟨n, cmd, p, x, tail, hpair, _, hf, hi⟩ := decodeFrame_ok_cases h
  have hnoise : (buf.take n).length = n := List.length_take_of_le (firstPair_lt_length hpair).le
  refine ⟨buf.take n, frameWith c cmd p x, tail, ?_, by rw [List.append_assoc, ← hf, List.take_append_drop],
    by rw [hnoise, hpair], ?_⟩
  · obtain ⟨rfl, rfl, _⟩ | ⟨_, rfl, _⟩ := hi
    · exact encode_goodFrameInstr c cmd p
    · rfl
  · obtain ⟨_, rfl, hrest⟩ | ⟨_, rfl, hrest⟩ := hi
    · exact .inr ⟨goodFrameInstr_ne_badFrame c cmd p, hrest⟩
    · exact .inl ⟨cmd, p, x, rfl, hrest⟩

/-- Settles O57: decoder and receiver read the same frame at the first pair, and both wait where `scan` does. -/
theorem receiverRunsTheDecodedFrame : Obligations.ReceiverRunsTheDecodedFrame := by
  unfold Obligations.ReceiverRunsTheDecodedFrame
  refine ⟨fun s i rest h => ?_, fun s e h => ?_⟩
  · obtain ⟨n, cmd, p, x, tail, hpair, hp, hf, ⟨hx, rfl, rfl⟩ | ⟨hx, rfl, rfl⟩⟩ := decodeFrame_ok_cases h
    · refine ⟨rest, ?_, .inr ⟨goodFrameInstr_ne_badFrame s.cfg cmd p, rfl⟩⟩
      rw [parseOnce_of_frame hpair hp hf, if_pos hx]
      exact congrArg _ (goodFrameInstr_exec cmd p (s.setRxbuf rest)).symm
    · refine ⟨_, ?_, .inl ⟨cmd, p, x, rfl, rfl⟩⟩
      rw [parseOnce_of_frame hpair hp hf, if_neg hx]
      rfl
  · obtain ⟨kept, hk⟩ := scan_of_decodeFrame_error h
    exact ⟨kept, parseOnce_of_needMore hk⟩

/-- Settles O6: an incomplete frame is held (`scanAtPair_of_incomplete`), and a whole one is judged
(`parseOnce_of_frame`). -/
theorem receiverWaitsForWholeFrame : Obligations.ReceiverWaitsForWholeFrame := by
  unfold Obligations.ReceiverWaitsForWholeFrame
  intro s l hrx
  refine ⟨fun hshort => ?_, fun _ hwhole t ht => ?_⟩
  · have hscan : scan s.cfg s.rxbuf = scanAtPair s.rxbuf := by rw [hrx, scan_at_head]
    rw [parseOnce_of_needMore (hscan.trans (scanAtPair_of_incomplete hshort)), State.setRxbuf_self]
  · have hpair : firstPair s.cfg s.rxbuf = some 0 := by rw [hrx, firstPair_at_head]
    rw [parseOnce_of_frame hpair (framePayload_length_le _) (eq_frameWith_append hrx hwhole)] at ht
    cases ht

/-- Settles O8: a frame with its check byte stands at the head (`parseOnce_of_goodFrame`). -/
theorem goodFrameIsRemovedAndDispatched : Obligations.GoodFrameIsRemovedAndDispatched := by
  unfold Obligations.GoodFrameIsRemovedAndDispatched
  intro s cmd p rest hp hrx
  exact parseOnce_of_goodFrame hp (wireFrame_eq s.cfg cmd p ▸ hrx)

/-- Settles O9: BADFRAME computed, and a frame with a wrong check byte at the head (`parseOnce_of_badFrame`). -/
theorem badFrameDropsOneByte : Obligations.BadFrameDropsOneByte := by
  unfold Obligations.BadFrameDropsOneByte
  refine ⟨fun s cmd p k => ?_, fun s cmd p k rest => parseOnce_of_badFrame⟩
  rw [exec, execBadFrame, List.drop_one]
  rfl

/-- Settles O15 (`feed_eq_feedChunk`). -/
theorem chunkingDoesNotMatter : Obligations.ChunkingDoesNotMatter := by
  unfold Obligations.ChunkingDoesNotMatter
  exact fun s l => feed_eq_feedChunk l

end Sys2Proof.Machine

/-! # The protocol state machine (41_protocol_fsm.md)

What each frame and ENQUEUE do in each engine state, every run without RESET as a chain of these transitions, and the
obligations of the family. -/

namespace Sys2Proof.Machine

/-! ## The frames sent (R101, R102) -/

theorem ackFrame_eq_ackBytes (c : Config) : ackFrame c = ackBytes c := by
  rw [ackFrame, ← wireFrame_eq]
  simp [wireFrame, ackBytes, xorFold]

section Sending

variable (s : State) (cmd q : Byte) {p : List Byte}

theorem sendCmdFrame_of_le (hp : p.length ≤ 254) :
    s.sendCmdFrame cmd q p = .next (s.emit (.tx (wireFrame s.cfg cmd (q :: p)))) := by
  obtain ⟨_, h⟩ | ⟨hlong, _⟩ := sendCmdFrame_cases s cmd q p
  · rw [h, wireFrame_eq]
  · omega

theorem sendCmdFrame_of_overlong (hp : 254 < p.length) : s.sendCmdFrame cmd q p = .fault .buildOverlong := by
  obtain ⟨hle, _⟩ | ⟨_, h⟩ := sendCmdFrame_cases s cmd q p
  · omega
  · exact h

end Sending

/-! ## The transitions, each in the state it belongs to (R105 to R114) -/

/-- Two outputs one after the other (D15). -/
theorem State.emit_emit (s : State) (a b : Output) : (s.emit a).emit b = { s with trace := s.trace ++ [a, b] } := by
  simp [State.emit]

/-- Counting a retry is adding one to the 3-bit field (R108). -/
theorem Pending.countRetry_eq (q : Pending) :
    q.countRetry = { q with retries := BitVec.ofNat 3 (q.retries.toNat + 1) } := by
  rw [BitVec.ofNat_add, BitVec.ofNat_toNat, BitVec.setWidth_eq]
  rfl

section Transitions

variable {s : State} {q : Pending}

theorem pollResend_eq (hp : q.payload.length ≤ 254) : pollResend q s = .next { s with
    pend := some q.countRetry
    trace := s.trace ++ [.tx (cmdBytes s.cfg q), .ev (.sent q.seq q.countRetry.retries)] } := by
  have h := State.emit_emit (s.setPend q.countRetry) (.tx (cmdBytes s.cfg q)) (.ev (.sent q.seq q.countRetry.retries))
  rw [pollResend, sendCmdFrame_of_le s q.cmd q.seq hp, andThen_next]
  exact congrArg _ h

/-- The bare ack, one event, then the slot emptied: the two ends of a transaction (R109, R112). -/
theorem sendAckFrame_emitEv_closeSlot (s : State) (e : Event) : (s.sendAckFrame.emitEv e).closeSlot = { s with
    st := .idle, pend := none, trace := s.trace ++ [.tx (ackBytes s.cfg), .ev e] } := by
  rw [State.sendAckFrame_eq, State.emitEv_eq, State.emit_emit, ackFrame_eq_ackBytes]
  rfl

theorem dataDeliver_eq (cmd : Byte) (p : List Byte) (s : State) :
    dataDeliver cmd p s = { s with trace := s.trace ++ [.ev (.data cmd p), .tx (ackBytes s.cfg)] } := by
  rw [← ackFrame_eq_ackBytes]
  exact State.emit_emit s _ _

theorem claimSlot_eq (cmd : Byte) (p : List Byte) (s : State) : claimSlot cmd p s = { s with
    st := .waitAck
    seqctr := nextSeq s.seqctr
    pend := some (freshPending cmd (nextSeq s.seqctr) p)
    resp := some (.enqueue (.accept (nextSeq s.seqctr)))
    trace := s.trace ++ [.resp (.accept (nextSeq s.seqctr)), .ev (.queued (nextSeq s.seqctr) cmd)] } :=
  congrArg (fun trace => { claimSlot cmd p s with trace }) (List.append_assoc s.trace [_] [_])

theorem execPoll_of_waitData (p : List Byte) (hst : s.st = .waitData) (hq : s.pend = some q) :
    execPoll p s = .next (pollFinish q s) := by
  simp [execPoll, hst, hq]

theorem execPoll_of_retries_left (p : List Byte) (hst : s.st = .waitAck) (hq : s.pend = some q)
    (hr : q.retries.toNat < 5) : execPoll p s = pollResend q s := by
  rw [execPoll_of_waitAck p hst hq]
  exact if_pos hr

theorem execPoll_of_retries_exhausted (p : List Byte) (hst : s.st = .waitAck) (hq : s.pend = some q)
    (hr : 5 ≤ q.retries.toNat) : execPoll p s = .next (pollTimeout q s) := by
  rw [execPoll_of_waitAck p hst hq]
  exact if_neg (Nat.not_lt.mpr hr)

theorem execData_of_waitData (cmd : Byte) (p : List Byte) (hst : s.st = .waitData) :
    execData cmd p s = .next (dataDeliver cmd p s) := by
  simp [execData, hst]

theorem execData_of_stray (cmd : Byte) (p : List Byte) (hst : s.st ≠ .waitData) :
    execData cmd p s = .next (reportAnomaly cmd s) := by
  obtain ⟨_, h⟩ | ⟨hst', _⟩ := execData_cases cmd p s
  · exact h
  · exact absurd hst' hst

theorem execAck_of_waitAck (p : List Byte) (hst : s.st = .waitAck) (hq : s.pend = some q) :
    execAck p s = .next (ackAccept q s) := by
  simp [execAck, hst, hq]

theorem execAck_of_stray (p : List Byte) (hst : s.st ≠ .waitAck) :
    execAck p s = .next (reportAnomaly s.cfg.ackId s) := by
  unfold execAck
  cases h : s.st with
  | idle => rfl
  | waitAck => exact absurd h hst
  | waitData => rfl

end Transitions

/-! ## Polls one after another (R118) -/

theorem runInstrs_append (l m : List Instr) (s : State) :
    runInstrs (l ++ m) s = andThen (runInstrs l s) (runInstrs m) := by
  induction l generalizing s with
  | nil => rfl
  | cons i l ih => simp [runInstrs, andThen_assoc, funext ih]

theorem runInstrs_singleton (i : Instr) (s : State) : runInstrs [i] s = exec i s :=
  andThen_eq_self fun _ _ => rfl

/-- An unsent command `q` in `s` after `n` polls: sent, and its attempt reported, so many times. -/
def State.afterPolls (s : State) (q : Pending) (n : Nat) : State := { s with
  pend := some { q with retries := BitVec.ofNat 3 n }
  trace := s.trace ++
    (List.range n).flatMap fun k => [.tx (cmdBytes s.cfg q), .ev (.sent q.seq (BitVec.ofNat 3 (k + 1)))] }

theorem State.afterPolls_zero {s : State} {q : Pending} (hq : s.pend = some q) (hr : q.retries = 0) :
    s.afterPolls q 0 = s := by
  have hself : { q with retries := BitVec.ofNat 3 0 } = q := by rw [show BitVec.ofNat 3 0 = q.retries from hr.symm]
  rw [State.afterPolls, hself, ← hq, List.range_zero, List.flatMap_nil, List.append_nil]

theorem exec_poll_afterPolls {s : State} {q : Pending} {n : Nat} (p : List Byte) (hst : s.st = .waitAck)
    (hlen : q.payload.length ≤ 254) (hn : n < 5) :
    exec (.poll p) (s.afterPolls q n) = .next (s.afterPolls q (n + 1)) := by
  have hcount : (BitVec.ofNat 3 n).toNat = n := Nat.mod_eq_of_lt (by omega)
  have hpoll : execPoll p (s.afterPolls q n) = _ :=
    execPoll_of_retries_left (q := { q with retries := BitVec.ofNat 3 n }) p hst rfl (hcount.trans_lt hn)
  rw [exec, hpoll, pollResend_eq (q := { q with retries := BitVec.ofNat 3 n }) hlen, Pending.countRetry_eq]
  simp [State.afterPolls, hcount, List.range_succ, cmdBytes]

theorem runInstrs_polls {s : State} {q : Pending} {n : Nat} (hst : s.st = .waitAck) (hq : s.pend = some q)
    (hr : q.retries = 0) (hlen : q.payload.length ≤ 254) (hn : n ≤ 5) :
    runInstrs (List.replicate n (.poll [])) s = .next (s.afterPolls q n) := by
  induction n with
  | zero => rw [State.afterPolls_zero hq hr]; rfl
  | succ n ih =>
    rw [List.replicate_succ', runInstrs_append, ih (by omega), andThen_next, runInstrs_singleton,
      exec_poll_afterPolls [] hst hlen (by omega)]

/-! ## Runs as chains of transitions -/

/-- Outputs that neither the life cycle nor the sequence of accepted numbers speaks of: frames, refusals of an ENQUEUE,
diagnostics. -/
def Output.quiet : Output → Bool
  | .tx _ | .resp .busy | .resp .faultLen | .ev (.diagChecksum _ _) | .ev (.diagAnomaly _ _) => true
  | _ => false

/-- All that the block does short of RESET: a quiet step that leaves the registers alone, or a transition of R103,
R108 to R110, R112 or R113 in the state it belongs to. -/
inductive State.Moves (s : State) : State → Prop where
  | quiet {t : State} (out : List Output) (hquiet : ∀ o ∈ out, o.quiet = true) (trace : t.trace = s.trace ++ out)
      (st : t.st = s.st) (pend : t.pend = s.pend) (seqctr : t.seqctr = s.seqctr) : s.Moves t
  | claim (cmd : Byte) (p : List Byte) (was : s.st = .idle) (len : p.length ≤ 254) : s.Moves (claimSlot cmd p s)
  | resend {t : State} (q : Pending) (f : List Byte) (was : s.st = .waitAck) (held : s.pend = some q)
      (left : q.retries.toNat < 5) (trace : t.trace = s.trace ++ [.tx f, .ev (.sent q.seq q.countRetry.retries)])
      (st : t.st = .waitAck) (pend : t.pend = some q.countRetry) (seqctr : t.seqctr = s.seqctr) : s.Moves t
  | timeout (q : Pending) (was : s.st = .waitAck) (held : s.pend = some q) (spent : 5 ≤ q.retries.toNat) :
      s.Moves (pollTimeout q s)
  | accept (q : Pending) (was : s.st = .waitAck) (held : s.pend = some q) : s.Moves (ackAccept q s)
  | deliver (cmd : Byte) (p : List Byte) (was : s.st = .waitData) : s.Moves (dataDeliver cmd p s)
  | finish (q : Pending) (was : s.st = .waitData) (held : s.pend = some q) : s.Moves (pollFinish q s)

theorem State.moves_emit {o : Output} (s : State) (ho : o.quiet = true) : s.Moves (s.emit o) :=
  .quiet [o] (by simpa using ho) rfl rfl rfl rfl

theorem State.moves_setRxbuf (s : State) (l : List Byte) : s.Moves (s.setRxbuf l) :=
  .quiet [] (by simp) (by simp) rfl rfl rfl

section Chains

variable {s t : State} {cmd : Byte} {p : List Byte}

theorem execPoll_moves (h : execPoll p s = .next t) : s.Moves t := by
  obtain ⟨_, rfl⟩ | ⟨q, hst, hq, hr, h⟩ | ⟨q, hst, hq, hr, rfl⟩ | ⟨q, hst, hq, rfl⟩ := execPoll_next h
  · exact s.moves_emit rfl
  · obtain ⟨_, rfl⟩ := pollResend_next h
    exact .resend q _ hst hq hr (List.append_assoc ..) hst rfl rfl
  · exact .timeout q hst hq hr
  · exact .finish q hst hq

theorem execAck_moves (h : execAck p s = .next t) : s.Moves t := by
  obtain ⟨_, rfl⟩ | ⟨q, hst, hq, rfl⟩ := execAck_next h
  · exact s.moves_emit rfl
  · exact .accept q hst hq

theorem execData_moves (h : execData cmd p s = .next t) : s.Moves t := by
  obtain ⟨_, he⟩ | ⟨hst, he⟩ := execData_cases cmd p s <;> rw [he] at h <;> cases h
  · exact s.moves_emit rfl
  · exact .deliver cmd p hst

theorem onFrame_moves (h : onFrame cmd p s = .next t) : s.Moves t := by
  obtain ⟨_, he⟩ | ⟨_, _, he⟩ | ⟨_, _, he⟩ := onFrame_cases cmd p s <;> rw [he] at h
  · exact execPoll_moves h
  · exact execAck_moves h
  · exact execData_moves h

theorem execBadFrame_moves {k : Byte} (h : execBadFrame cmd p k s = .next t) : s.Moves t := by
  cases h
  exact .quiet [_] (by simp [Output.quiet]) rfl rfl rfl rfl

theorem execEnqueue_moves (h : execEnqueue cmd p s = .next t) : s.Moves t := by
  obtain ⟨_, he⟩ | ⟨hp, hst, he⟩ | ⟨_, _, he⟩ := execEnqueue_cases cmd p s <;> rw [he] at h <;> cases h
  · exact .quiet [.resp .faultLen] (by simp [Output.quiet]) rfl rfl rfl rfl
  · exact .claim cmd p hst hp
  · exact .quiet [.resp .busy] (by simp [Output.quiet]) rfl rfl rfl rfl

theorem sendCmdFrame_moves {q : Byte} (h : s.sendCmdFrame cmd q p = .next t) : s.Moves t := by
  obtain ⟨_, he⟩ | ⟨_, he⟩ := sendCmdFrame_cases s cmd q p <;> rw [he] at h <;> cases h
  exact s.moves_emit rfl

open Relation (ReflTransGen)

/-- The parse loop is a chain of dropped and dispatched frames (R83). -/
theorem parseLoop_moves {fuel : Nat} (h : parseLoop fuel s = .next t) : ReflTransGen State.Moves s t := by
  induction fuel generalizing s with
  | zero => cases h
  | succ fuel ih =>
    obtain ⟨kept, _, hp⟩ | ⟨f, _, hp⟩ | ⟨f, _, hp⟩ := parseOnce_cases s
    · rw [parseLoop_of_needMore hp] at h
      cases h
      exact .single (s.moves_setRxbuf kept)
    · rw [parseLoop_of_progress hp] at h
      obtain ⟨u, hu, hut⟩ := andThen_eq_next.mp h
      exact .head (s.moves_setRxbuf f) (.head (execBadFrame_moves hu) (ih hut))
    · rw [parseLoop_of_progress hp] at h
      obtain ⟨u, hu, hut⟩ := andThen_eq_next.mp h
      exact .head (s.moves_setRxbuf _) (.head (onFrame_moves hu) (ih hut))

theorem exec_moves {i : Instr} (hi : i ≠ .reset) (h : exec i s = .next t) : ReflTransGen State.Moves s t := by
  cases i with
  | status => cases h; exact .single (.quiet [] (by simp) (by simp) rfl rfl rfl)
  | rxByte b => exact .head (s.moves_setRxbuf _) (parseLoop_moves h)
  | enqueue cmd p => exact .single (execEnqueue_moves h)
  | reset => exact absurd rfl hi
  | poll p => exact .single (execPoll_moves (p := p) h)
  | ack p => exact .single (execAck_moves (p := p) h)
  | data cmd p => exact .single (execData_moves h)
  | badFrame cmd p k => exact .single (execBadFrame_moves (k := k) h)
  | ackf => cases h; exact .single (s.moves_emit rfl)
  | cmdf cmd q p => exact .single (sendCmdFrame_moves h)

/-- A run without RESET is a chain of transitions. -/
theorem runInstrs_moves {is : List Instr} (hr : Instr.reset ∉ is) (h : runInstrs is s = .next t) :
    ReflTransGen State.Moves s t := by
  induction is generalizing s with
  | nil => cases h; exact .refl
  | cons i is ih =>
    obtain ⟨hi, his⟩ := List.ne_and_not_mem_of_not_mem_cons hr
    obtain ⟨u, hu, hut⟩ := andThen_eq_next.mp h
    exact (exec_moves hi.symm hu).trans (ih his hut)

end Chains

/-! ## The numbers a chain accepts (R104, R120) -/

theorem acceptedSeqs_append (l m : List Output) : acceptedSeqs (l ++ m) = acceptedSeqs l ++ acceptedSeqs m := by
  induction l using acceptedSeqs.induct <;> simp [acceptedSeqs, *]

theorem acceptedSeqs_of_quiet {out : List Output} (h : ∀ o ∈ out, o.quiet = true) : acceptedSeqs out = [] := by
  induction out using acceptedSeqs.induct <;> simp_all [acceptedSeqs, Output.quiet]

theorem nextSeq_toNat (c : Byte) : (nextSeq c).toNat = if c.toNat = 255 then 1 else c.toNat + 1 := by
  have hc : c.toNat < 256 := c.isLt
  rw [nextSeq, Config.seqMax, BitVec.toNat_ofNat]
  split <;> omega

/-- A transition accepts no number and leaves the counter, or it accepts the next one and the counter holds it. -/
theorem State.Moves.accepts {s t : State} (h : s.Moves t) : ∃ out, t.trace = s.trace ++ out ∧
    ((acceptedSeqs out = [] ∧ t.seqctr = s.seqctr) ∨
     (acceptedSeqs out = [nextSeq s.seqctr] ∧ t.seqctr = nextSeq s.seqctr)) := by
  cases h with
  | quiet out hquiet trace st pend seqctr => exact ⟨out, trace, .inl ⟨acceptedSeqs_of_quiet hquiet, seqctr⟩⟩
  | claim cmd p was len => exact ⟨_, List.append_assoc .., .inr ⟨rfl, rfl⟩⟩
  | resend q f was held left trace st pend seqctr => exact ⟨_, trace, .inl ⟨rfl, seqctr⟩⟩
  | timeout q was held spent => exact ⟨_, List.append_assoc .., .inl ⟨rfl, rfl⟩⟩
  | accept q was held => exact ⟨_, rfl, .inl ⟨rfl, rfl⟩⟩
  | deliver cmd p was => exact ⟨_, List.append_assoc .., .inl ⟨rfl, rfl⟩⟩
  | finish q was held => exact ⟨_, List.append_assoc .., .inl ⟨rfl, rfl⟩⟩

theorem accepts_of_chain {s t : State} (h : Relation.ReflTransGen State.Moves s t) :
    ∃ out, t.trace = s.trace ++ out ∧ SeqChain s.seqctr (acceptedSeqs out) ∧
      t.seqctr = (acceptedSeqs out).getLastD s.seqctr ∧ 0 ∉ acceptedSeqs out := by
  induction h using Relation.ReflTransGen.head_induction_on with
  | refl => exact ⟨[], by simp, trivial, rfl, by simp [acceptedSeqs]⟩
  | head hmove _ ih =>
    obtain ⟨first, htrace, haccept⟩ := hmove.accepts
    obtain ⟨rest, htrace', hchain, hlast, hzero⟩ := ih
    refine ⟨first ++ rest, by rw [htrace', htrace, List.append_assoc], ?_⟩
    rw [acceptedSeqs_append]
    obtain ⟨hnone, hctr⟩ | ⟨hone, hctr⟩ := haccept
    · rw [hnone, ← hctr]
      exact ⟨hchain, hlast, hzero⟩
    · rw [hone, List.singleton_append, List.getLastD_cons, ← hctr]
      refine ⟨⟨hctr ▸ nextSeq_toNat _, hchain⟩, hlast, List.not_mem_cons_of_ne_of_not_mem ?_ hzero⟩
      rw [hctr]
      exact (nextSeq_ne_zero _).symm

/-! ## The life cycle a chain follows (R122) -/

theorem Life.follow_append (l : Life) (a b : List Output) : l.follow (a ++ b) = (l.follow a).bind (·.follow b) := by
  induction l, a using Life.follow.induct <;> simp [Life.follow, *]

theorem Life.follow_of_quiet (l : Life) {out : List Output} (h : ∀ o ∈ out, o.quiet = true) :
    l.follow out = some l := by
  induction out with
  | nil => rfl
  | cons o out ih =>
    obtain ⟨ho, hout⟩ := List.forall_mem_cons.mp h
    rcases o with f | e | r
    · exact ih hout
    · cases e with
      | diagChecksum cmd len => exact ih hout
      | diagAnomaly st cmd => exact ih hout
      | _ => cases ho
    · exact ih hout

/-- Where a transaction stands is told by `st` and the slot alone. -/
theorem life_of_registers_eq {s t : State} (hst : t.st = s.st) (hpend : t.pend = s.pend) : t.life = s.life := by
  rw [State.life, State.life, hst, hpend]

theorem life_of_idle {s : State} (hst : s.st = .idle) : s.life = .closed := by
  rw [State.life, hst]

theorem life_of_waitAck {s : State} {q : Pending} (hst : s.st = .waitAck) (hq : s.pend = some q) :
    s.life = .waiting q.seq q.retries.toNat := by
  rw [State.life, hst, hq]

theorem life_of_waitData {s : State} {q : Pending} (hst : s.st = .waitData) (hq : s.pend = some q) :
    s.life = .acked q.seq := by
  rw [State.life, hst, hq]

theorem countRetry_toNat {q : Pending} (h : q.retries.toNat < 5) :
    q.countRetry.retries.toNat = q.retries.toNat + 1 := by
  rw [Pending.countRetry_retries]
  bv_omega

/-- A transition keeps I1 to I4. -/
theorem State.Moves.engineInv {s t : State} (h : s.Moves t) (hi : s.EngineInv) : t.EngineInv := by
  cases h with
  | quiet out hquiet trace st pend seqctr => exact engineInv_of_registers_eq st pend seqctr hi
  | claim cmd p was len => exact claimSlot_engineInv len s
  | resend q f was held left trace st pend seqctr =>
    exact State.EngineMove.engineInv (.resend q was held left (st.trans was.symm) pend) seqctr hi
  | timeout q was held spent => exact State.EngineMove.engineInv (s := s) (.close (by simp [was]) rfl rfl) rfl hi
  | accept q was held => exact State.EngineMove.engineInv (.accept q was held rfl rfl) rfl hi
  | deliver cmd p was => exact engineInv_of_registers_eq rfl rfl rfl hi
  | finish q was held => exact State.EngineMove.engineInv (s := s) (.close (by simp [was]) rfl rfl) rfl hi

/-- The events of one transition lead from where the transaction stood to where it stands. -/
theorem State.Moves.follows {s t : State} (h : s.Moves t) (hi : s.EngineInv) :
    ∃ out, t.trace = s.trace ++ out ∧ s.life.follow out = some t.life := by
  obtain ⟨hslot, _, _, hbound⟩ := hi
  cases h with
  | quiet out hquiet trace st pend seqctr =>
    exact ⟨out, trace, by rw [Life.follow_of_quiet _ hquiet, life_of_registers_eq st pend]⟩
  | claim cmd p was len =>
    refine ⟨_, List.append_assoc .., ?_⟩
    rw [life_of_idle was]
    rfl
  | resend q f was held left trace st pend seqctr =>
    refine ⟨_, trace, ?_⟩
    rw [life_of_waitAck was held, life_of_waitAck st pend]
    have hcount := countRetry_toNat left
    rw [Life.follow, Life.follow, Life.after, if_pos ⟨rfl, hcount, left⟩, hcount]
    rfl
  | timeout q was held spent =>
    have hfive : q.retries.toNat = 5 := le_antisymm (hbound q held).1 spent
    refine ⟨_, List.append_assoc .., ?_⟩
    rw [life_of_waitAck was held, life_of_idle (s := pollTimeout q s) rfl]
    simp [Life.follow, Life.after, hfive]
  | accept q was held =>
    refine ⟨_, rfl, ?_⟩
    rw [life_of_waitAck was held, life_of_waitData (q := q.markAcked) rfl rfl]
    simp [Life.follow, Life.after]
  | deliver cmd p was =>
    obtain ⟨q, held⟩ := hslot.exists_pend (by simp [was])
    refine ⟨_, List.append_assoc .., ?_⟩
    rw [life_of_waitData was held, life_of_waitData (s := dataDeliver cmd p s) was held]
    rfl
  | finish q was held =>
    refine ⟨_, List.append_assoc .., ?_⟩
    rw [life_of_waitData was held, life_of_idle (s := pollFinish q s) rfl]
    simp [Life.follow, Life.after]

theorem follows_of_chain {s t : State} (h : Relation.ReflTransGen State.Moves s t) (hi : s.EngineInv) :
    ∃ out, t.trace = s.trace ++ out ∧ s.life.follow out = some t.life := by
  induction h using Relation.ReflTransGen.head_induction_on with
  | refl => exact ⟨[], by simp, rfl⟩
  | head hmove _ ih =>
    obtain ⟨first, htrace, hfirst⟩ := hmove.follows hi
    obtain ⟨rest, htrace', hrest⟩ := ih (hmove.engineInv hi)
    exact ⟨first ++ rest, by rw [htrace', htrace, List.append_assoc],
      by rw [Life.follow_append, hfirst, Option.bind_some, hrest]⟩

/-! ## The frames each instruction sends (R117) -/

section Transmits

variable {s t : State} {out : List Output} {p : List Byte}

/-- What the trace gains is told by the two traces. -/
theorem outputs_unique {a : List Output} (ha : t.trace = s.trace ++ a) (hout : t.trace = s.trace ++ out) : out = a :=
  List.append_cancel_left (hout.symm.trans ha)

theorem execPoll_txFrames (hout : t.trace = s.trace ++ out) (h : execPoll p s = .next t) :
    txFrames out = [ackBytes s.cfg] ∨
      ∃ q, s.st = .waitAck ∧ s.pend = some q ∧ txFrames out = [cmdBytes s.cfg q] := by
  rw [← ackFrame_eq_ackBytes]
  obtain ⟨_, rfl⟩ | ⟨q, hst, hq, _, h⟩ | ⟨q, _, _, _, rfl⟩ | ⟨q, _, _, rfl⟩ := execPoll_next h
  · exact .inl (by rw [outputs_unique rfl hout]; rfl)
  · obtain ⟨_, rfl⟩ := pollResend_next h
    refine .inr ⟨q, hst, hq, ?_⟩
    rw [outputs_unique (List.append_assoc ..) hout, cmdBytes, wireFrame_eq]
    rfl
  · exact .inl (by rw [outputs_unique (List.append_assoc ..) hout]; rfl)
  · exact .inl (by rw [outputs_unique (List.append_assoc ..) hout]; rfl)

theorem execData_txFrames {cmd : Byte} (hout : t.trace = s.trace ++ out) (h : execData cmd p s = .next t) :
    txFrames out = if s.st = .waitData then [ackBytes s.cfg] else [] := by
  obtain ⟨hst, he⟩ | ⟨hst, he⟩ := execData_cases cmd p s <;> rw [he] at h <;> cases h
  · rw [if_neg hst, outputs_unique rfl hout]
    rfl
  · rw [if_pos hst, ← ackFrame_eq_ackBytes, outputs_unique (List.append_assoc ..) hout]
    rfl

theorem execEnqueue_txFrames {cmd : Byte} (hout : t.trace = s.trace ++ out) (h : execEnqueue cmd p s = .next t) :
    txFrames out = [] := by
  obtain ⟨_, he⟩ | ⟨_, _, he⟩ | ⟨_, _, he⟩ := execEnqueue_cases cmd p s <;> rw [he] at h <;> cases h
  · rw [outputs_unique rfl hout]
    rfl
  · rw [outputs_unique (List.append_assoc ..) hout]
    rfl
  · rw [outputs_unique rfl hout]
    rfl

theorem execAck_txFrames (hout : t.trace = s.trace ++ out) (h : execAck p s = .next t) : txFrames out = [] := by
  obtain ⟨_, rfl⟩ | ⟨q, _, _, rfl⟩ := execAck_next h <;> rw [outputs_unique rfl hout] <;> rfl

end Transmits

/-! ## The obligations -/

/-- Settles O55: a run is a chain of transitions (`runInstrs_moves`), and a chain follows the life cycle. -/
theorem eventsFollowTheLifeCycle : Obligations.EventsFollowTheLifeCycle := by
  unfold Obligations.EventsFollowTheLifeCycle
  exact fun is s t hreset hi hrun => follows_of_chain (runInstrs_moves hreset hrun) hi

/-- Settles O33: a run is a chain of transitions (`runInstrs_moves`), and a chain accepts one number after another. -/
theorem sequenceNumbersFollowOneAnother : Obligations.SequenceNumbersFollowOneAnother := by
  unfold Obligations.SequenceNumbersFollowOneAnother
  exact fun is s t hreset hrun => accepts_of_chain (runInstrs_moves hreset hrun)

/-- Settles O28: five polls send the command (`runInstrs_polls`), and the sixth finds the retries exhausted. -/
theorem retryBudgetIsFive : Obligations.RetryBudgetIsFive := by
  unfold Obligations.RetryBudgetIsFive
  intro s q hst hq hr hlen
  refine ⟨fun n => runInstrs_polls hst hq hr hlen, ?_⟩
  have hsixth : execPoll [] (s.afterPolls q 5) = _ :=
    execPoll_of_retries_exhausted (q := { q with retries := 5 }) [] hst rfl (by simp)
  rw [List.replicate_succ', runInstrs_append, runInstrs_polls hst hq hr hlen le_rfl, andThen_next,
    runInstrs_singleton, exec, hsixth, pollTimeout, sendAckFrame_emitEv_closeSlot]
  rfl

/-- Settles O53, instruction by instruction: the outputs are told by the trace (`outputs_unique`). -/
theorem transmitsOnlyWhenAllowed : Obligations.TransmitsOnlyWhenAllowed := by
  unfold Obligations.TransmitsOnlyWhenAllowed
  refine fun s t out hout => ⟨fun p => execPoll_txFrames (p := p) hout, fun cmd p => execData_txFrames hout, ?_⟩
  rintro i (⟨cmd, p, rfl⟩ | ⟨p, rfl⟩ | ⟨cmd, p, k, rfl⟩ | rfl | rfl) h
  · exact execEnqueue_txFrames hout h
  · exact execAck_txFrames (p := p) hout h
  · cases h
    rw [outputs_unique rfl hout]
    rfl
  · cases h
    rw [outputs_unique (List.append_nil _).symm hout]
    rfl
  · cases h
    rw [outputs_unique (List.append_nil _).symm hout]
    rfl

/-- Settles O16: `on_frame` is `exec` of the frame's instruction (`goodFrameInstr_exec`), whatever the buffer
(`onFrame_setRxbuf`). -/
theorem frameClassSelectsTransition : Obligations.FrameClassSelectsTransition := by
  unfold Obligations.FrameClassSelectsTransition
  intro s cmd p l
  refine ⟨?_, ?_, fun hpoll hack => ?_, onFrame_setRxbuf cmd p l s⟩
  · rintro rfl
    rw [← goodFrameInstr_exec, goodFrameInstr_pollId]
  · rintro hpoll rfl
    rw [← goodFrameInstr_exec, goodFrameInstr_ackId _ _ hpoll.symm]
  · rw [← goodFrameInstr_exec, goodFrameInstr_other _ _ hpoll hack]

/-- Settles O17: `pollIdle` with the bytes of R101. -/
theorem pollInIdleSendsAck : Obligations.PollInIdleSendsAck := by
  unfold Obligations.PollInIdleSendsAck
  intro s p hst
  rw [exec, execPoll_of_idle p hst, pollIdle, State.sendAckFrame_eq, ackFrame_eq_ackBytes]
  rfl

/-- Settles O18: the poll resends (`execPoll_of_retries_left`), which is computed in `pollResend_eq`. -/
theorem pollResendsCommand : Obligations.PollResendsCommand := by
  unfold Obligations.PollResendsCommand
  intro s p q hst hq hr hlen
  rw [exec, execPoll_of_retries_left p hst hq hr, pollResend_eq hlen, Pending.countRetry_eq]

/-- Settles O19: the retries are exhausted (`execPoll_of_retries_exhausted`), which ends the transaction. -/
theorem pollTimesOut : Obligations.PollTimesOut := by
  unfold Obligations.PollTimesOut
  intro s p q hst hq hr
  rw [exec, execPoll_of_retries_exhausted p hst hq (by simp [hr]), pollTimeout, sendAckFrame_emitEv_closeSlot]

/-- Settles O20: the poll ends the transaction (`sendAckFrame_emitEv_closeSlot`). -/
theorem pollFinishesTransaction : Obligations.PollFinishesTransaction := by
  unfold Obligations.PollFinishesTransaction
  intro s p q hst hq
  rw [exec, execPoll_of_waitData p hst hq, pollFinish, sendAckFrame_emitEv_closeSlot]

/-- Settles O21 (`execAck_of_waitAck`). -/
theorem ackIsAccepted : Obligations.AckIsAccepted := by
  unfold Obligations.AckIsAccepted
  exact fun s p q => execAck_of_waitAck p

/-- Settles O22 (`execAck_of_stray`). -/
theorem strayAckIsAnomaly : Obligations.StrayAckIsAnomaly := by
  unfold Obligations.StrayAckIsAnomaly
  exact fun s p => execAck_of_stray p

/-- Settles O23 (`execData_of_stray`). -/
theorem strayDataIsAnomaly : Obligations.StrayDataIsAnomaly := by
  unfold Obligations.StrayDataIsAnomaly
  exact fun s cmd p => execData_of_stray cmd p

/-- Settles O24: the event first, then the bare ack (`dataDeliver_eq`). -/
theorem dataIsDeliveredAndAcked : Obligations.DataIsDeliveredAndAcked := by
  unfold Obligations.DataIsDeliveredAndAcked
  intro s cmd p hst
  rw [exec, execData_of_waitData cmd p hst, dataDeliver_eq]

/-- Settles O25: the frame sent has the bytes of R101 (`ackFrame_eq_ackBytes`). -/
theorem ackFrameIsSent : Obligations.AckFrameIsSent := by
  unfold Obligations.AckFrameIsSent
  intro s
  rw [← ackFrame_eq_ackBytes]
  rfl

/-- Settles O26: both sides of the length `build` can take. -/
theorem commandFrameIsSent : Obligations.CommandFrameIsSent := by
  unfold Obligations.CommandFrameIsSent
  exact fun s cmd q p => ⟨sendCmdFrame_of_le s cmd q, sendCmdFrame_of_overlong s cmd q⟩

/-- Settles O29: ENQUEUE claims the slot, which is computed in `claimSlot_eq`. -/
theorem enqueueIsAccepted : Obligations.EnqueueIsAccepted := by
  unfold Obligations.EnqueueIsAccepted
  intro s cmd p hst hp
  rw [exec, execEnqueue_of_idle cmd hst hp]
  exact congrArg _ (claimSlot_eq cmd p s)

/-- Settles O30: of the three answers of ENQUEUE only BUSY is left. -/
theorem enqueueWhileBusyChangesNothing : Obligations.EnqueueWhileBusyChangesNothing := by
  unfold Obligations.EnqueueWhileBusyChangesNothing
  intro s cmd p hst hp
  obtain ⟨hlong, _⟩ | ⟨_, hidle, _⟩ | ⟨_, _, h⟩ := execEnqueue_cases cmd p s
  · omega
  · exact absurd hidle hst
  · exact h

/-- Settles O40: nothing is fetched (`fetch_of_nothing_offered`). -/
theorem nothingMovesUnasked : Obligations.NothingMovesUnasked := by
  unfold Obligations.NothingMovesUnasked
  intro s hc hl hh
  rw [step, fetch_of_nothing_offered hc hl hh]

end Sys2Proof.Machine

/-! # Exceptional events (60_exceptions.md)

That every operation the ports can offer completes in a good state, the event records read back, the conditions each
transition reports, and the obligations of the family. -/

namespace Sys2Proof.Machine

/-! ## A step from a good state (R130, R153, R154) -/

section GoodStates

variable {s t : State}

/-- What the ports can offer is no frame, so an overlong ENQUEUE too completes (R133). -/
theorem exec_decoded_completes {op : PortOp} {i : Instr} (hd : decodeOp op = .ok i) (h1 : s.SlotAgrees)
    (h4 : s.PendBounded) : ∃ t, exec i s = .next t := by
  obtain rfl | ⟨b, rfl⟩ | rfl | ⟨cmd, rfl, _⟩ := decodeOp_ok_cases hd
  · exact ⟨_, rfl⟩
  · exact execRxByte_completes b h1 h4
  · exact ⟨_, rfl⟩
  · exact execEnqueue_completes cmd

theorem settle_completes {i : Instr} {o : Host.Outcome State Fault Refusal} (h : ∃ t, o = .next t) :
    ∃ t, settle i o = .next t := by
  obtain ⟨t, rfl⟩ := h
  by_cases hi : i = .reset
  · exact ⟨t.takeParams, by rw [hi, settle_reset, andThen_next]⟩
  · exact ⟨t, settle_of_ne_reset hi _⟩

/-- The offers are the one taken and those that stay (R52). -/
theorem State.Takes.perm_offers {u : State} {op : PortOp} (h : s.Takes op u) :
    (s.lineIn ++ s.hostIn).Perm (op :: (u.lineIn ++ u.hostIn)) := by
  obtain ⟨hl, hu⟩ | ⟨hh, hu⟩ := h.offers
  · rw [hl, hu, List.cons_append]
  · rw [hh, hu]
    exact List.perm_middle

/-- A step that is not refused completes: the two refusals need equal reserved ids or a mismatched offer. -/
theorem step_completes (hi : s.Inv) (hc : s.cfg.pollId ≠ s.cfg.ackId)
    (hm : ∀ op ∈ s.lineIn ++ s.hostIn, ¬ Mismatched op) : ∃ t, step s = .next t := by
  obtain ⟨he, _⟩ | ⟨_, _, _, hs⟩ | ⟨_, op, u, i, hk, hd, hs⟩ | ⟨_, op, u, hk, hbad, _⟩ := step_cases s
  · exact absurd he hc
  · exact ⟨s, hs⟩
  · obtain ⟨⟨h1, _, _, h4⟩, _⟩ := hk.inv hi
    rw [hs]
    exact settle_completes (exec_decoded_completes hd h1 h4)
  · exact absurd hbad (hm op (hk.perm_offers.mem_iff.mpr List.mem_cons_self))

theorem settle_exec_offers {i : Instr} (h : settle i (exec i s) = .next t) :
    t.lineIn = s.lineIn ∧ t.hostIn = s.hostIn := by
  obtain ⟨_, he⟩ | ⟨_, u, he, rfl⟩ := settle_next h
  · have hko := exec_keepsOutside he
    exact ⟨hko.lineIn, hko.hostIn⟩
  · have hko := exec_keepsOutside he
    exact ⟨u.takeParams_lineIn.trans hko.lineIn, u.takeParams_hostIn.trans hko.hostIn⟩

/-- A step offers nothing new (log entry 5). -/
theorem step_offers_subset (h : step s = .next t) : t.lineIn ++ t.hostIn ⊆ s.lineIn ++ s.hostIn := by
  obtain ⟨_, hs⟩ | ⟨_, _, _, hs⟩ | ⟨_, op, u, i, hk, _, hs⟩ | ⟨_, _, _, _, _, hs⟩ := step_cases s <;> rw [hs] at h
  · cases h
  · cases h
    exact List.Subset.refl _
  · obtain ⟨hline, hhost⟩ := settle_exec_offers h
    rw [hline, hhost]
    exact List.Subset.trans (List.subset_cons_self op _) hk.perm_offers.symm.subset
  · cases h

/-- The parameters after a step are those in force or the oldest of those to come (R153), so they stay legal. -/
theorem step_keeps_params_legal (h : step s = .next t) (hc : s.cfg.pollId ≠ s.cfg.ackId)
    (hp : ∀ c ∈ s.paramIn, c.pollId ≠ c.ackId) :
    t.cfg.pollId ≠ t.cfg.ackId ∧ ∀ c ∈ t.paramIn, c.pollId ≠ c.ackId := by
  obtain ⟨hcfg, hpar⟩ | ⟨_, _, _, _, hnew⟩ := step_params h
  · rw [hcfg, hpar]
    exact ⟨hc, hp⟩
  · rw [hnew] at hp
    exact List.forall_mem_cons.mp hp

end GoodStates

/-! ## Event records read back (R138) -/

/-- The event of a record: byte 0 tells the kind, and its fields are behind it; the length byte of a
data record is skipped, since the payload is all that follows it. -/
def eventOfRecord? : List Byte → Option Event
  | [] => none
  | kind :: fields =>
    match kind.toNat, fields with
    | 1, [q, c] => some (.queued q c)
    | 2, [q, k] => some (.sent q (k.setWidth 3))
    | 3, [q] => some (.acknowledged q)
    | 4, c :: _ :: p => some (.data c p)
    | 5, [q] => some (.finished q)
    | 6, [q] => some (.timeout q)
    | 7, [c, n] => some (.diagChecksum c n)
    | 8, [st, c] => (stOfCode? (st.setWidth 2)).map (.diagAnomaly · c)
    | _, _ => none

theorem eventOfRecord?_eventRecord (e : Event) : eventOfRecord? (eventRecord e) = some e := by
  cases e with
  | sent q k =>
    have hk : (k.setWidth 8).setWidth 3 = k := by simp
    exact congrArg (some <| Event.sent q ·) hk
  | diagAnomaly st c => cases st <;> rfl
  | _ => rfl

theorem eventRecord_injective : Function.Injective eventRecord := by
  intro e e' h
  have hread : some e = some e' := by rw [← eventOfRecord?_eventRecord e, h, eventOfRecord?_eventRecord]
  exact Option.some.inj hread

/-! ## The conditions each instruction reports (R131) -/

section Conditions

variable {s t : State} {out : List Output} {cmd : Byte} {p : List Byte}

theorem onFrame_pollId : onFrame s.cfg.pollId p s = execPoll p s := by
  obtain ⟨hclass, _⟩ := frameClassSelectsTransition s s.cfg.pollId p []
  exact hclass rfl

/-- The conditions reported are told by what the trace gains. -/
theorem conditions_of_trace {a : List Output} {l : List Condition} (hout : t.trace = s.trace ++ out)
    (ha : t.trace = s.trace ++ a) (hl : a.filterMap reportedCondition? = l) : out.filterMap reportedCondition? = l := by
  rw [outputs_unique ha hout, hl]

theorem pollTimeout_conditions {q : Pending} (hout : (pollTimeout q s).trace = s.trace ++ out) :
    out.filterMap reportedCondition? = [.timeout] :=
  conditions_of_trace hout (List.append_assoc ..) rfl

/-- Outside WAIT_ACK, or with retries left, a poll reports nothing (R105, R108, R112). -/
theorem execPoll_conditions (hleft : s.st ≠ .waitAck ∨ ∀ q ∈ s.pend, q.retries.toNat < 5)
    (hout : t.trace = s.trace ++ out) (h : execPoll p s = .next t) : out.filterMap reportedCondition? = [] := by
  obtain ⟨_, rfl⟩ | ⟨q, _, _, _, h⟩ | ⟨q, hst, hq, hspent, _⟩ | ⟨q, _, _, rfl⟩ := execPoll_next h
  · exact conditions_of_trace hout rfl rfl
  · obtain ⟨_, rfl⟩ := pollResend_next h
    exact conditions_of_trace hout (List.append_assoc ..) rfl
  · exact absurd (hleft.resolve_left (not_not_intro hst) q hq) (Nat.not_lt.mpr hspent)
  · exact conditions_of_trace hout (List.append_assoc ..) rfl

theorem execAck_conditions (hout : t.trace = s.trace ++ out) (h : execAck p s = .next t) :
    out.filterMap reportedCondition? = if s.st = .waitAck then [] else [.anomaly] := by
  obtain ⟨hst, rfl⟩ | ⟨q, hst, _, rfl⟩ := execAck_next h
  · rw [if_neg hst]
    exact conditions_of_trace hout rfl rfl
  · rw [if_pos hst]
    exact conditions_of_trace hout rfl rfl

theorem execData_conditions (hout : t.trace = s.trace ++ out) (h : execData cmd p s = .next t) :
    out.filterMap reportedCondition? = if s.st = .waitData then [] else [.anomaly] := by
  obtain ⟨hst, he⟩ | ⟨hst, he⟩ := execData_cases cmd p s <;> rw [he] at h <;> cases h
  · rw [if_neg hst]
    exact conditions_of_trace hout rfl rfl
  · rw [if_pos hst]
    exact conditions_of_trace hout (List.append_assoc ..) rfl

theorem execBadFrame_conditions {k : Byte} (hout : t.trace = s.trace ++ out) (h : execBadFrame cmd p k s = .next t) :
    out.filterMap reportedCondition? = [.checksumMismatch] := by
  cases h
  exact conditions_of_trace hout rfl rfl

theorem execEnqueue_conditions (hout : t.trace = s.trace ++ out) (h : execEnqueue cmd p s = .next t) :
    out.filterMap reportedCondition? =
      if 254 < p.length then [.faultLen] else if s.st = .idle then [] else [.busy] := by
  obtain ⟨hp, he⟩ | ⟨hp, hst, he⟩ | ⟨hp, hst, he⟩ := execEnqueue_cases cmd p s <;> rw [he] at h <;> cases h
  · rw [if_pos hp]
    exact conditions_of_trace hout rfl rfl
  · rw [if_neg (Nat.not_lt.mpr hp), if_pos hst]
    exact conditions_of_trace hout (List.append_assoc ..) rfl
  · rw [if_neg (Nat.not_lt.mpr hp), if_neg hst]
    exact conditions_of_trace hout rfl rfl

end Conditions

/-! ## The obligations -/

/-- Settles O49: the step completes (`step_completes`), keeps R33 (O47), offers nothing new and fixes none but legal
parameters. -/
theorem goodStatesNeverStop : Obligations.GoodStatesNeverStop := by
  unfold Obligations.GoodStatesNeverStop
  intro s hi hc hm
  obtain ⟨t, ht⟩ := step_completes hi hc hm
  exact ⟨t, ht, stepKeepsInvariants s t hi ht, fun op hop => hm op (step_offers_subset ht hop),
    step_keeps_params_legal ht hc⟩

/-- Settles O37: the records are read back (`eventOfRecord?_eventRecord`), and their bytes are R138's. -/
theorem eventRecordsAreDistinct : Obligations.EventRecordsAreDistinct := by
  unfold Obligations.EventRecordsAreDistinct
  refine ⟨eventRecord_injective, fun q c n l => ⟨rfl, fun k => ⟨k.setWidth 8, ?_, rfl⟩, rfl, rfl, rfl, rfl, rfl, rfl,
    rfl, rfl⟩⟩
  exact BitVec.toNat_setWidth_of_le (by decide)

/-- Settles O54, instruction by instruction; a frame is the transition of its class (O16). -/
theorem conditionsAreRaisedByTheirCause : Obligations.ConditionsAreRaisedByTheirCause := by
  unfold Obligations.ConditionsAreRaisedByTheirCause
  refine ⟨⟨rfl, rfl, rfl, rfl, rfl⟩, fun s t out hout => ⟨fun p q hst hq hspent h => ?_, fun p hleft h => ?_,
    fun cmd p hpoll hack h => ?_, fun cmd p hpoll hack h => ?_, fun cmd p k => execBadFrame_conditions (k := k) hout,
    fun cmd p => execEnqueue_conditions hout, ?_⟩⟩
  · rw [onFrame_pollId, execPoll_of_retries_exhausted p hst hq hspent] at h
    cases h
    exact pollTimeout_conditions hout
  · rw [onFrame_pollId] at h
    exact execPoll_conditions hleft hout h
  · obtain ⟨_, hclass, _⟩ := frameClassSelectsTransition s cmd p []
    rw [hclass hpoll hack] at h
    exact execAck_conditions (p := p) hout h
  · obtain ⟨_, _, hclass, _⟩ := frameClassSelectsTransition s cmd p []
    rw [hclass hpoll hack] at h
    exact execData_conditions hout h
  · rintro i (rfl | rfl) h <;> cases h <;> exact conditions_of_trace hout (List.append_nil _).symm rfl

/-- Settles O31: of the three answers of ENQUEUE only FAULT_LEN is left. -/
theorem overlongEnqueueSetsFault : Obligations.OverlongEnqueueSetsFault := by
  unfold Obligations.OverlongEnqueueSetsFault
  intro s cmd p hp
  obtain ⟨_, h⟩ | ⟨hle, _⟩ | ⟨hle, _⟩ := execEnqueue_cases cmd p s
  · exact h
  · omega
  · omega

end Sys2Proof.Machine

/-! # Reset and hazards (70_reset_and_hazards.md)

What a RESET leaves, what the receiver holds of an unfinished frame, and the obligations of the family. -/

namespace Sys2Proof.Machine

/-! ## An unfinished frame (R24, R157) -/

/-- A header and fewer than N + 1 bytes behind it are a buffer of R24's form (d). -/
theorem rxForm_of_unfinished (c : Config) (x : Byte) {n : Byte} {l : List Byte} (hl : l.length < 1 + n.toNat) :
    RxForm c (c.sync1 :: c.sync2 :: x :: n :: l) := by
  have hshort : (c.sync1 :: c.sync2 :: x :: n :: l).length < 5 + n.toNat := by
    simp only [List.length_cons]
    omega
  exact .inr (.inr ⟨rfl, .inr hshort⟩)

/-! ## The obligations -/

/-- Settles O7: the receiver resolves what an empty one would hold (`feed_of_sync1`), which waits whole
(`resolveBuffer_of_rxAgrees`). -/
theorem heldBytesChangeNothingElse : Obligations.HeldBytesChangeNothingElse := by
  unfold Obligations.HeldBytesChangeNothingElse
  intro s x n l hrx hl
  rw [feed_of_sync1 (.inl hrx)]
  exact resolveBuffer_of_rxAgrees (rxForm_of_unfinished s.cfg x hl)

/-- Settles O34: the block after a RESET (`State.resetBlock_eq`), and the reset values computed. -/
theorem resetClearsTheBlock : Obligations.ResetClearsTheBlock := by
  unfold Obligations.ResetClearsTheBlock
  intro s
  refine ⟨?_, rfl, rfl, rfl, rfl, rfl⟩
  rw [exec_reset, State.resetBlock_eq]

end Sys2Proof.Machine
